-- ==== Sys2Proof/Word.lean ====
section
/-! DEFINITION. The words of the block: a wire byte (30_encoding.md R90 to R96) and an event word (R97). -/

namespace Sys2Proof

/-- One byte of the inbound or outbound stream, one 8-bit value (20_memory.md R73). -/
abbrev Byte := BitVec 8

/-- One event word: EV in bits 15:12, RSV in bits 11:8, DATA in bits 7:0 (30_encoding.md R97). -/
abbrev EventWord := BitVec 16

end Sys2Proof
end

