-- ==== Sys2Proof/Syntax.lean ====
section
/-! DEFINITION. The input events (30_encoding.md R98), what the agents hand to the block (00_scope.md R8, R10), and the steps
of an event script (30_encoding.md R104, R105). -/

namespace Sys2Proof

/-- The input events: one constructor per row of the event map (30_encoding.md R98). -/
inductive Instr where
  /-- START, EV 0x1, from HOST (43_link.md R192). -/
  | start
  /-- OPEN_OK, EV 0x2, from LINK (43_link.md R193). -/
  | openOk
  /-- OPEN_FAIL, EV 0x3, from LINK (43_link.md R194). -/
  | openFail
  /-- RX, EV 0x4, from LINK; `data` is the inbound button byte (30_encoding.md R99, 43_link.md R195). -/
  | rx (data : Byte)
  /-- TX_TAKE, EV 0x5, from LINK (42_framing.md R172). -/
  | txTake
  /-- LINK_LOST, EV 0x6, from LINK (43_link.md R196). -/
  | linkLost
  /-- DRAIN_DONE, EV 0x7, from LINK (43_link.md R198). -/
  | drainDone
  /-- CLOSE_DONE, EV 0x8, from LINK (43_link.md R199). -/
  | closeDone
  /-- DISCONNECT, EV 0x9, from HOST (43_link.md R197). -/
  | disconnect
  /-- TERMINATE, EV 0xA, from HOST (43_link.md R200). -/
  | terminate
  /-- TICK, EV 0xB, from TIMER (41_decoder.md R155). -/
  | tick
  /-- STEP, label 0xF000, BLOCK's internal step (43_link.md R201, 30_encoding.md R101). -/
  | step
deriving DecidableEq, Repr

/-- Who takes a step (00_scope.md R10). -/
inductive Agent where
  /-- The process that owns the block. -/
  | host
  /-- The serial device and its driver. -/
  | link
  /-- The periodic monitor-power timer. -/
  | timer
  /-- The block itself. -/
  | block
deriving DecidableEq, Repr

/-- A number of a sample (00_scope.md R8): an exact rational, or an IEEE 754 binary64 word, which may also be a NaN or an
infinity (40_encoder.md R136). Which one the block computes with is BAR_ARITH's choice. -/
inductive Num where
  | rational (q : Rat)
  | binary64 (bits : BitVec 64)
deriving DecidableEq, Repr, Inhabited

/-- One core of a sample: the pair `(valid, value)` (00_scope.md R8). -/
structure CoreReading where
  valid : Bool
  value : Num
deriving DecidableEq, Repr, Inhabited

/-- One sample `(N, U, M)` (00_scope.md R8): `U` is `cores`, `N` is its length, `M` is `mem`. -/
structure Sample where
  cores : List CoreReading
  mem : Num
deriving DecidableEq, Repr, Inhabited

/-- One step that an agent takes next. -/
inductive Stimulus where
  /-- A word on the event port (43_link.md R191), with the answer that SampleDraw() gives in that step; `none` leaves the draw
  free (30_encoding.md R104). -/
  | present (word : EventWord) (sample : Option Sample)
  /-- BLOCK takes its internal STEP; it does not pass through the port (30_encoding.md R101). -/
  | block
deriving DecidableEq, Repr

/-- One line of an event script (30_encoding.md R104, R105). -/
inductive ScriptStep where
  /-- A mnemonic of the event map; the sample stands only beside RX. -/
  | event (i : Instr) (sample : Option Sample)
  /-- `WORD w`: the raw 16-bit word on the event port, legal or not. -/
  | word (w : EventWord)
  /-- `TX n`: `n` copies of TX_TAKE. -/
  | tx (n : Nat)
  /-- `CYCLE b sample`: RX, then the TX_TAKEs of its whole frame. -/
  | cycle (data : Byte) (sample : Sample)
  /-- `PRESS sample`: RX 0x01. -/
  | press (sample : Sample)
  /-- `RELEASE sample`: RX 0x00. -/
  | release (sample : Sample)
deriving DecidableEq, Repr

end Sys2Proof
end

