-- ==== Sys2Proof/Config.lean ====
section
/-! DEFINITION. The implementation parameters (00_scope.md R6) and the free values. An `opaque` constant has no body: nothing can
be proved about its value. -/

namespace Sys2Proof

/-- BAR_ARITH, how `floor(value * 127)` is evaluated (00_scope.md R6, 40_encoder.md R133). -/
inductive BarArith where
  /-- Exact rationals, the default. -/
  | exact
  /-- IEEE 754 binary64. -/
  | binary64
deriving DecidableEq, Repr, Inhabited

/-- The parameters that R6 lets a model take as an argument. They are fixed for the whole run (70_reset_and_hazards.md R262).
notes/assumptions/7.md says why the state carries them. -/
structure Params where
  /-- RECONNECT_MAX, a natural number 0..255. -/
  reconnectMax : Fin 256
  /-- FAIL_EXIT_CODE, the exit code of the failure paths (43_link.md R203). -/
  failExitCode : Nat
  /-- MON_ON_RESET, the value of MON_ON at reset (10_state.md R39). -/
  monOnReset : Bool
  /-- PORT_PATH, opaque: no rule reads it. -/
  portPath : String
  /-- BAUD, opaque: no rule reads it. -/
  baud : Nat
  /-- BAR_ARITH. -/
  barArith : BarArith
deriving DecidableEq, Repr, Inhabited

namespace Config

/-- MAX_CORES (00_scope.md R6): the most cores one frame holds. -/
def maxCores : Nat := 31

/-- BAR_SCALE (00_scope.md R6). -/
def barScale : Nat := 127

/-- SOF (00_scope.md R6): the start-of-frame marker, bit 7 of a header. -/
def sof : Nat := 128

/-- TICK_PERIOD_MS (00_scope.md R6): timing only, no rule depends on it (70_reset_and_hazards.md R270). -/
def tickPeriodMs : Nat := 500

/-- FAIL_EXIT_CODE is OPEN (00_scope.md R6, 92_eei_decisions.md D16). DESIGN CHOICE, safe: notes/assumptions/6.md. -/
opaque failExitCode : Nat

/-- MON_ON_RESET is OPEN (00_scope.md R6, 92_eei_decisions.md D17). DESIGN CHOICE, safe: notes/assumptions/6.md. -/
opaque monOnReset : Bool

/-- PORT_PATH is OPEN (00_scope.md R6). DESIGN CHOICE, safe: notes/assumptions/6.md. -/
opaque portPath : String

/-- BAUD is OPEN (00_scope.md R6). DESIGN CHOICE, safe: notes/assumptions/6.md. -/
opaque baud : Nat

/-- The parameters of a run from reset: R6's defaults, and the open constants where R6 gives none. -/
def params : Params where
  reconnectMax := 0
  failExitCode := failExitCode
  monOnReset := monOnReset
  portPath := portPath
  baud := baud
  barArith := .exact

/-- `ExitCode(NONE)`: 43_link.md R203 gives no code for a STEP with no cause, which no reachable state takes. A free value;
DESIGN CHOICE, safe: notes/assumptions/8.md. -/
opaque exitCodeNoCause : Nat

/-- The draw that SampleDraw() returns at the `n`-th step when no sample is fixed for it (00_scope.md R8: "a fresh draw under no
law"). A free value; DESIGN CHOICE, safe: notes/assumptions/9.md. -/
opaque freeDraw : Nat → Sample

end Config

end Sys2Proof
end

