-- ==== Sys2Proof/WellFormed.lean ====
section
/-! DEFINITION. What makes an event word legal (30_encoding.md R100), an event presentable on the port (R101), and a script step
writable (R104, R105). Each check is a Bool. -/

namespace Sys2Proof

/-- EV, bits 15:12 (30_encoding.md R97). -/
def EventWord.ev (w : EventWord) : BitVec 4 := w.extractLsb' 12 4

/-- RSV, bits 11:8 (30_encoding.md R97). -/
def EventWord.rsv (w : EventWord) : BitVec 4 := w.extractLsb' 8 4

/-- DATA, bits 7:0 (30_encoding.md R97). -/
def EventWord.data (w : EventWord) : Byte := w.extractLsb' 0 8

/-- The event codes that no agent may present: 0x0, 0xC, 0xD, 0xE and 0xF (30_encoding.md R100). -/
def evReserved (ev : BitVec 4) : Bool :=
  ev == 0x0 || ev == 0xC || ev == 0xD || ev == 0xE || ev == 0xF

/-- R100's first test: EV is not a reserved code. -/
def EventWord.evLegal (w : EventWord) : Bool := !evReserved w.ev

/-- R100's second test: RSV is 0. -/
def EventWord.rsvZero (w : EventWord) : Bool := w.rsv == 0

/-- R100's third test: DATA is 0 unless EV is 0x4 (RX). -/
def EventWord.dataAllowed (w : EventWord) : Bool := w.ev == 0x4 || w.data == 0

/-- A word that may be presented on the event port (30_encoding.md R100). -/
def EventWord.wellFormed (w : EventWord) : Bool := w.evLegal && w.rsvZero && w.dataAllowed

/-- An event that an agent may present on the port: every one but STEP, whose code is a label (30_encoding.md R101). Its operand
needs no check: RX's byte is 8 bits by its type (R99). -/
def Instr.wellFormed (i : Instr) : Bool := i != .step

/-- The agent column of the event map (30_encoding.md R98). -/
def Instr.agent : Instr → Agent
  | .start => .host
  | .openOk => .link
  | .openFail => .link
  | .rx _ => .link
  | .txTake => .link
  | .linkLost => .link
  | .drainDone => .link
  | .closeDone => .link
  | .disconnect => .host
  | .terminate => .host
  | .tick => .timer
  | .step => .block

/-- Only RX takes a sample, and `TX n` needs `n >= 1` (30_encoding.md R104, R105). -/
def ScriptStep.wellFormed : ScriptStep → Bool
  | .event (.rx _) _ => true
  | .event _ sample => sample.isNone
  | .word _ => true
  | .tx n => decide (1 ≤ n)
  | .cycle _ _ => true
  | .press _ => true
  | .release _ => true

end Sys2Proof
end

