-- ==== Sys2Proof/Decode.lean ====
section
/-! DEFINITION. The decoder of the event port (30_encoding.md R103), the decoder of a script's word (R106), and the encoder. -/

namespace Sys2Proof

/-- Why a word is illegal on the event port (30_encoding.md R100). Every one raises EV_ILLEGAL. -/
inductive IllegalWord where
  /-- RSV (bits 11:8) is not 0. -/
  | reservedBits
  /-- EV is one of the codes 0x0, 0xC, 0xD, 0xE that name no event. -/
  | reservedEvent
  /-- EV is 0xF, the label of BLOCK's own step (30_encoding.md R101). -/
  | stepOnPort
  /-- DATA is not 0 and EV is not 0x4. -/
  | dataNotZero
deriving DecidableEq, Repr

/-- EV, bits 15:12 of a word (30_encoding.md R97). -/
def evField (w : EventWord) : BitVec 4 := w.extractLsb' 12 4

/-- RSV, bits 11:8 of a word (30_encoding.md R97). -/
def rsvField (w : EventWord) : BitVec 4 := w.extractLsb' 8 4

/-- DATA, bits 7:0 of a word (30_encoding.md R97). -/
def dataField (w : EventWord) : Byte := w.extractLsb' 0 8

/-- The event that a code with RSV = 0 and DATA = `data` names (30_encoding.md R98), before the test of DATA. -/
def eventOfCode (ev : BitVec 4) (data : Byte) : Except IllegalWord Instr :=
  match ev.toNat with
  | 1 => .ok .start
  | 2 => .ok .openOk
  | 3 => .ok .openFail
  | 4 => .ok (.rx data)
  | 5 => .ok .txTake
  | 6 => .ok .linkLost
  | 7 => .ok .drainDone
  | 8 => .ok .closeDone
  | 9 => .ok .disconnect
  | 10 => .ok .terminate
  | 11 => .ok .tick
  | 15 => .error .stepOnPort
  | _ => .error .reservedEvent

/-- `Decode(w)` (30_encoding.md R103): what a word presented on the event port names. Its tests stand in R103's order: RSV, then
EV, then DATA. -/
def decode (w : EventWord) : Except IllegalWord Instr :=
  if rsvField w ≠ 0 then .error .reservedBits
  else
    match eventOfCode (evField w) (dataField w) with
    | .error e => .error e
    | .ok i => if evField w ≠ 4 ∧ dataField w ≠ 0 then .error .dataNotZero else .ok i

/-- The label of BLOCK's internal step in the opcode table and in scripts (30_encoding.md R101, R106). -/
def stepLabel : EventWord := 0xF000

/-- The step that a word of an assembled script marks (30_encoding.md R106): 0xF000 marks a BLOCK step and is not presented on the
port. notes/assumptions/5.md. -/
def decodeLabel (w : EventWord) : Except IllegalWord Instr :=
  if w = stepLabel then .ok .step else decode w

/-- The event word of an event: the `match` column of 30_encoding.md R98, with RX's byte in DATA (R106). -/
def encode : Instr → EventWord
  | .start => 0x1000
  | .openOk => 0x2000
  | .openFail => 0x3000
  | .rx b => 0x4000 ||| b.setWidth 16
  | .txTake => 0x5000
  | .linkLost => 0x6000
  | .drainDone => 0x7000
  | .closeDone => 0x8000
  | .disconnect => 0x9000
  | .terminate => 0xA000
  | .tick => 0xB000
  | .step => stepLabel

/-- The `match` column of the event map (30_encoding.md R98). -/
def rowMatch : Instr → EventWord
  | .start => 0x1000
  | .openOk => 0x2000
  | .openFail => 0x3000
  | .rx _ => 0x4000
  | .txTake => 0x5000
  | .linkLost => 0x6000
  | .drainDone => 0x7000
  | .closeDone => 0x8000
  | .disconnect => 0x9000
  | .terminate => 0xA000
  | .tick => 0xB000
  | .step => 0xF000

/-- The `mask` column of the event map (30_encoding.md R98): RX alone leaves DATA free. -/
def rowMask : Instr → EventWord
  | .start => 0xFFFF
  | .openOk => 0xFFFF
  | .openFail => 0xFFFF
  | .rx _ => 0xFF00
  | .txTake => 0xFFFF
  | .linkLost => 0xFFFF
  | .drainDone => 0xFFFF
  | .closeDone => 0xFFFF
  | .disconnect => 0xFFFF
  | .terminate => 0xFFFF
  | .tick => 0xFFFF
  | .step => 0xFFFF

/-- The event that the opcode table's row of word `w` stands for. Every event word is 16 bits (30_encoding.md R97, R102), so a
number of more bits is no word; the row of STEP is a label (R101), which `decodeLabel` reads. -/
def decodeTableWord (_nbits w : Nat) : Option Instr :=
  if w < 2 ^ 16 then
    match decodeLabel (BitVec.ofNat 16 w) with
    | .ok i => some i
    | .error _ => none
  else none

end Sys2Proof
end

