-- ==== Sys2Proof/Machine/State.lean ====
section
/-! DEFINITION. The architectural state (10_state.md R30), the output actions (R44), and the state after reset
(70_reset_and_hazards.md R260). -/

namespace Sys2Proof.Machine

/-- LS, the link state (10_state.md R31). Code 7 is reserved and never written, so it has no constructor, as R31 allows
(notes/assumptions/13.md). -/
inductive LinkState where
  /-- 0 DISCONNECTED: no link has been requested yet. -/
  | disconnected
  /-- 1 CONNECTING: an open request is pending. -/
  | connecting
  /-- 2 OPEN: the link is open and cycles run on each inbound byte. -/
  | opened
  /-- 3 DRAINING: a graceful close is in progress; DSUB says which part. -/
  | draining
  /-- 4 CLOSED: a graceful close without termination completed. -/
  | closed
  /-- 5 TERMINATING: termination has begun. -/
  | terminating
  /-- 6 EXITED: the process has exited. -/
  | exited
deriving DecidableEq, Repr

/-- CONT, the close continuation (10_state.md R35). -/
inductive Continuation where
  /-- 0 NONE: nothing runs when the close completes. -/
  | none
  /-- 1 EXIT: the termination continuation runs when the close completes. -/
  | exit
deriving DecidableEq, Repr

/-- CAUSE, the termination cause (10_state.md R36). -/
inductive Cause where
  /-- 0 NONE. -/
  | none
  /-- 1 SIGNAL: TERMINATE. -/
  | signal
  /-- 2 OPEN_FAIL: an open failure with no reconnect left. -/
  | openFail
  /-- 3 LINK_LOST: a link loss with no reconnect left. -/
  | linkLost
deriving DecidableEq, Repr

/-- The kinds of log record (43_link.md R204). Their text is not specified. -/
inductive LogKind where
  | openFail
  | linkLost
deriving DecidableEq, Repr

/-- The output actions (10_state.md R44). -/
inductive Action where
  /-- `REQ_OPEN(PORT_PATH, BAUD)`: ask the serial device to open. -/
  | reqOpen (portPath : String) (baud : Nat)
  /-- `FRAME(f)`: the one synchronous write of frame `f` to the link. -/
  | frame (f : List Byte)
  /-- `WIRE(b)`: byte `b` left the block on the serial line. -/
  | wire (b : Byte)
  /-- `REQ_DRAIN`: ask the device to flush the writes in flight. -/
  | reqDrain
  /-- `REQ_CLOSE`: ask the device to close. -/
  | reqClose
  /-- `CMD_DISPLAY_ON`: the external "force display on" command. -/
  | cmdDisplayOn
  /-- `CMD_DISPLAY_OFF`: the external "force display off" command. -/
  | cmdDisplayOff
  /-- `LOG(k)`: a log record of kind `k`. -/
  | log (k : LogKind)
  /-- `EXIT(code)`: the process exits with `code`. -/
  | exit (code : Nat)
deriving DecidableEq, Repr

/-- The faults of the spec (60_exceptions.md R230). Each one sets a bit of FAULT and the block keeps running (R231), so each is a
next state of the step. -/
inductive FaultCode where
  /-- Code 1, bit 0: an illegal event word. -/
  | evIllegal
  /-- Code 2, bit 1: a legal event whose rule's guard fails. -/
  | evContext
  /-- Code 4, bit 2: a value ENCODE reads is not a number in [0, 1]. -/
  | inRange
deriving DecidableEq, Repr

/-- The reasons for which the MACHINE stops with a fault. There is none: a fault of this block is a bit of FAULT, after which the
run goes on (60_exceptions.md R231), and EXITED takes no further step without failing (R245). Safe: notes/assumptions/15.md. -/
inductive Fault where
deriving DecidableEq, Repr

/-- The reasons for which the model refuses an event. -/
inductive Refusal where
  /-- Raised by an arm of `exec` for an event that has no meaning in the model yet; no arm does. Safe: the model stops where the
  block goes on. -/
  | notModelled (mnemonic : String)
deriving DecidableEq, Repr

/-- The block's state: the registers and sequences of 10_state.md R30, then the model's own fields. -/
structure State where
  /-- LS (R31). -/
  ls : LinkState
  /-- ENDING (R32). -/
  ending : Bool
  /-- HANDLE (R33). -/
  handle : Bool
  /-- DSUB (R34): false while a drain is pending, true while a close is pending. -/
  dsub : Bool
  /-- CONT (R35). -/
  cont : Continuation
  /-- CAUSE (R36). -/
  cause : Cause
  /-- RETRY (R37). -/
  retry : BitVec 8
  /-- PREV_BUTTONS (R38). -/
  prevButtons : Byte
  /-- MON_ON (R39). -/
  monOn : Bool
  /-- FORCED_ON (R40). -/
  forcedOn : Bool
  /-- FORCED_OFF (R40). -/
  forcedOff : Bool
  /-- FAULT (R42): bit 0 EV_ILLEGAL, bit 1 EV_CONTEXT, bit 2 IN_RANGE. -/
  fault : BitVec 3
  /-- EXIT_CODE (R43). -/
  exitCode : Option Nat
  /-- TXQ (R41), the next byte to leave first. -/
  txq : List Byte
  /-- OUT (R44), the oldest action first. -/
  out : List Action
  /-- MODEL: the parameters of the run (00_scope.md R6), never written (70_reset_and_hazards.md R262). -/
  params : Params
  /-- MODEL: the steps the agents take next, in order (notes/assumptions/1.md). -/
  schedule : List Stimulus
  /-- MODEL: what SampleDraw() answers in the step being taken (00_scope.md R8, notes/assumptions/9.md). -/
  draw : Sample
  /-- MODEL: how many stimuli have been taken; the argument of the next free draw (notes/assumptions/9.md). -/
  stepIndex : Nat
deriving DecidableEq, Repr

/-- The state after reset under the parameters `p` (70_reset_and_hazards.md R260). -/
def State.resetWith (p : Params) : State where
  ls := .disconnected
  ending := false
  handle := false
  dsub := false
  cont := .none
  cause := .none
  retry := 0
  prevButtons := 0x00
  monOn := p.monOnReset
  forcedOn := false
  forcedOff := false
  fault := 0
  exitCode := .none
  txq := []
  out := []
  params := p
  schedule := []
  draw := ⟨[], .rational 0⟩
  stepIndex := 0

/-- The machine right after reset (70_reset_and_hazards.md R260), with the parameters of `Config.params`. -/
def State.reset : State := State.resetWith Config.params

/-- The outcome of a step of this machine. -/
abbrev Result := Host.Outcome State Fault Refusal

end Sys2Proof.Machine
end

