-- ==== Sys2Proof/Machine/Flags.lean ====
section
/-! DEFINITION. The single-bit computations (10_state.md R49): the bits of FAULT (60_exceptions.md R230), the button edges and
MON_ON (41_decoder.md R150, R151), the exit code of a cause (43_link.md R203), and the codes of the named registers. -/

namespace Sys2Proof.Machine

/-- A fault's code, the weight of its bit in FAULT (60_exceptions.md R230). -/
def faultWeight : FaultCode → BitVec 3
  | .evIllegal => 0b001
  | .evContext => 0b010
  | .inRange => 0b100

/-- `pressed = (~p) & b & 0x01` (41_decoder.md R150). -/
def pressedEdges (prev b : Byte) : Byte := ~~~prev &&& b &&& 0x01

/-- `released = p & (~b) & 0x01` (41_decoder.md R150). -/
def releasedEdges (prev b : Byte) : Byte := prev &&& ~~~b &&& 0x01

/-- MON_ON after a report: a press sets it, a release clears it, and it is kept without an edge (41_decoder.md R151). -/
def monitorAfter (prev b : Byte) (monOn : Bool) : Bool :=
  if pressedEdges prev b ≠ 0 then true
  else if releasedEdges prev b ≠ 0 then false
  else monOn

/-- `ExitCode(CAUSE)` (43_link.md R203). R203 gives no code for NONE: notes/assumptions/8.md. -/
def exitCodeOf (failExitCode : Nat) : Cause → Nat
  | .signal => 0
  | .openFail => failExitCode
  | .linkLost => failExitCode
  | .none => Config.exitCodeNoCause

/-- The code of a link state (10_state.md R31). -/
def linkStateCode : LinkState → BitVec 3
  | .disconnected => 0
  | .connecting => 1
  | .opened => 2
  | .draining => 3
  | .closed => 4
  | .terminating => 5
  | .exited => 6

/-- The code of CONT (10_state.md R35). -/
def continuationCode : Continuation → BitVec 1
  | .none => 0
  | .exit => 1

/-- The code of CAUSE (10_state.md R36). -/
def causeCode : Cause → BitVec 2
  | .none => 0
  | .signal => 1
  | .openFail => 2
  | .linkLost => 3

end Sys2Proof.Machine
end

