-- ==== Sys2Proof/Machine/Operands.lean ====
section
/-! DEFINITION. The operand forms: the numbers of a sample (00_scope.md R8) and the bars they become (40_encoder.md R133 to R136).
An event's own operand, RX's byte, is read by the decoder (30_encoding.md R99). -/

namespace Sys2Proof.Machine

/-- The natural number nearest `n / d`, ties to even. -/
def roundTiesEven (n d : Nat) : Nat :=
  if 2 * (n % d) < d then n / d
  else if d < 2 * (n % d) then n / d + 1
  else n / d + n / d % 2

/-- The exponent `t` with `2^t <= n/d < 2^(t+1)`, for positive `n` and `d`. -/
def floorLog2 (n d : Nat) : Int :=
  let t : Int := (n.log2 : Int) - (d.log2 : Int)
  if n * 2 ^ (-t).toNat < d * 2 ^ t.toNat then t - 1 else t

/-- The exponent of a binary64 number's last place at the magnitude `n/d`: 53 bits of precision, none below 2^-1074
(93_implementation_defined.md K2; PRESUMED, notes/assumptions/11.md). -/
def lastPlace (n d : Nat) : Int := max (floorLog2 n d - 52) (-1074)

/-- The binary64 number nearest `q`, ties to even (40_encoder.md R133, 93_implementation_defined.md K2; PRESUMED,
notes/assumptions/11.md). A magnitude of 2^1024 or more, an infinity in binary64, is left as it rounds: the range check refuses
both (40_encoder.md R136). -/
def nearestBinary64 (q : Rat) : Rat :=
  let u := lastPlace q.num.natAbs q.den
  let m := roundTiesEven (q.num.natAbs * 2 ^ (-u).toNat) (q.den * 2 ^ u.toNat)
  mkRat (q.num.sign * ((m * 2 ^ u.toNat : Nat) : Int)) (2 ^ (-u).toNat)

/-- The number a binary64 word stands for: sign in bit 63, exponent in bits 62:52, fraction in bits 51:0; `none` for a NaN or an
infinity (93_implementation_defined.md K2; PRESUMED, notes/assumptions/11.md). -/
def binary64Value (w : BitVec 64) : Option Rat :=
  let e := (w.extractLsb' 52 11).toNat
  let f := (w.extractLsb' 0 52).toNat
  if e = 2047 then none
  else
    let m : Nat := if e = 0 then f else 2 ^ 52 + f
    let u : Int := (max e 1 : Nat) - 1075
    let sign : Int := if w.getLsbD 63 then -1 else 1
    some (mkRat (sign * ((m * 2 ^ u.toNat : Nat) : Int)) (2 ^ (-u).toNat))

/-- The value of a sample's number under BAR_ARITH (00_scope.md R8): `none` when it is not a number. A rational under BINARY64 is
the binary64 number nearest it (PRESUMED, notes/assumptions/10.md). -/
def numberValue (arith : BarArith) : Num → Option Rat
  | .rational q =>
    match arith with
    | .exact => some q
    | .binary64 => some (nearestBinary64 q)
  | .binary64 w => binary64Value w

/-- The value of a number that ENCODE reads, when it is a number in [0, 1]; `none` when the range check of 40_encoder.md R136
fails. -/
def unitValue (arith : BarArith) (x : Num) : Option Rat :=
  match numberValue arith x with
  | some q => if 0 ≤ q ∧ q ≤ 1 then some q else none
  | none => none

/-- The product `127 * x` as BAR_ARITH evaluates it (40_encoder.md R133). -/
def scaledValue (arith : BarArith) (x : Rat) : Rat :=
  match arith with
  | .exact => Config.barScale * x
  | .binary64 => nearestBinary64 (Config.barScale * x)

/-- The bar quantizer `Q(x) = floor(127 * x)`, for `0 <= x <= 1` (40_encoder.md R133; outside that range nothing reads it,
notes/assumptions/16.md). -/
def quantise (arith : BarArith) (x : Rat) : Byte :=
  BitVec.ofInt 8 (scaledValue arith x).floor

/-- The bar of a number that ENCODE reads (40_encoder.md R135), or `none` for IN_RANGE (R136). -/
def barOf (arith : BarArith) (x : Num) : Option Byte :=
  match unitValue arith x with
  | some q => some (quantise arith q)
  | none => none

/-- A core's bar (40_encoder.md R134): an invalid core is 0 and its value is not read; `none` is IN_RANGE (R136). -/
def coreBar (arith : BarArith) (c : CoreReading) : Option Byte :=
  if c.valid then barOf arith c.value else some 0

/-- The bars of a list of cores, in index order (40_encoder.md R134); `none` when one of them is out of range (R136). -/
def coreBars (arith : BarArith) : List CoreReading → Option (List Byte)
  | [] => some []
  | c :: cs =>
    match coreBar arith c, coreBars arith cs with
    | some b, some bs => some (b :: bs)
    | _, _ => none

end Sys2Proof.Machine
end

