-- ==== Sys2Proof/Machine/Ops.lean ====
section
/-! DEFINITION. The shared operations: the primitives of 00_scope.md R8, accepting an event (43_link.md R191), raising a fault
(60_exceptions.md R231), entering termination (R237), and the parts that several link events share. -/

namespace Sys2Proof.Machine

/-- `Emit(a)` (00_scope.md R8): append `a` to OUT. -/
def emit (a : Action) (s : State) : State := { s with out := s.out ++ [a] }

/-- `TxAppend(f)` (00_scope.md R8, 42_framing.md R171): append `f` to TXQ in one step. -/
def txAppend (f : List Byte) (s : State) : State := { s with txq := s.txq ++ f }

/-- `SampleDraw()` (00_scope.md R8): the oracle's answer in this step. -/
def sampleDraw (s : State) : Sample := s.draw

/-- `raise Fault(f)` (00_scope.md R8, 60_exceptions.md R231): set the fault's bit and change nothing else. It is applied to the
state before the step, so no other write of the step is kept. -/
def raiseFault (f : FaultCode) (s : State) : State := { s with fault := s.fault ||| faultWeight f }

/-- Run an event's rule, unless LS = EXITED, where there is no step (43_link.md R191, 60_exceptions.md R245;
notes/assumptions/3.md). -/
def onEvent (rule : State → State) (s : State) : Result :=
  .next (if s.ls = .exited then s else rule s)

/-- `Emit(REQ_OPEN(PORT_PATH, BAUD))` (43_link.md R192, R202). -/
def requestOpen (s : State) : State := emit (.reqOpen s.params.portPath s.params.baud) s

/-- `RETRY < RECONNECT_MAX` (43_link.md R202). -/
def retryLeft (s : State) : Bool := decide (s.retry.toNat < s.params.reconnectMax.val)

/-- One reconnect attempt (43_link.md R202): RETRY + 1, LS = CONNECTING, REQ_OPEN. -/
def retryOpen (s : State) : State := requestOpen { s with retry := s.retry + 1, ls := .connecting }

/-- Set ENDING and record the cause, once: a later cause changes neither (10_state.md R32, R36). -/
def recordCause (c : Cause) (s : State) : State :=
  { s with ending := true, cause := if s.ending then s.cause else c }

/-- Enter the termination routine (60_exceptions.md R237): record the cause and set LS = TERMINATING. There is no return from it
(R238). -/
def enterTermination (c : Cause) (s : State) : State := { recordCause c s with ls := .terminating }

/-- Request a graceful close (43_link.md R197, R201): LS = DRAINING, DSUB = 0, CONT = `k`, REQ_DRAIN. -/
def beginDrain (k : Continuation) (s : State) : State :=
  emit .reqDrain { s with ls := .draining, dsub := false, cont := k }

/-- Exit the process (43_link.md R201): EXIT_CODE = ExitCode(CAUSE), LS = EXITED, EXIT(code). -/
def exitProcess (s : State) : State :=
  let code := exitCodeOf s.params.failExitCode s.cause
  emit (.exit code) { s with exitCode := some code, ls := .exited }

end Sys2Proof.Machine
end

