-- ==== Sys2Proof/Machine/ButtonDecoder.lean ====
section
/-! DEFINITION. DECODE, the button decoder, and TICK, the monitor power tick (41_decoder.md R150 to R159). -/

namespace Sys2Proof.Machine

/-- `DECODE(b)` (41_decoder.md R154): MON_ON by the edge of bit 0, then the whole byte into PREV_BUTTONS. -/
def decodeButtons (b : Byte) (s : State) : State :=
  { s with monOn := monitorAfter s.prevButtons b s.monOn, prevButtons := b }

/-- TICK's first command (41_decoder.md R155): display off, while MON_ON = 0 and FORCED_OFF = 0. -/
def tickForceOff (s : State) : State :=
  if s.monOn = false ∧ s.forcedOff = false then { emit .cmdDisplayOff s with forcedOff := true } else s

/-- TICK's second command (41_decoder.md R155): display on, while MON_ON = 1 and FORCED_ON = 0. -/
def tickForceOn (s : State) : State :=
  if s.monOn = true ∧ s.forcedOn = false then { emit .cmdDisplayOn s with forcedOn := true } else s

/-- TICK's rule (41_decoder.md R155): the two commands, then both one-shot flags cleared. -/
def tickRule (s : State) : State :=
  { tickForceOn (tickForceOff s) with forcedOn := false, forcedOff := false }

/-- TICK, EV 0xB (41_decoder.md R155 to R158). -/
def execTick (s : State) : Result := onEvent tickRule s

end Sys2Proof.Machine
end

