-- ==== Sys2Proof/Machine/Encoder.lean ====
section
/-! DEFINITION. ENCODE, the frame encoder (40_encoder.md R130 to R141). -/

namespace Sys2Proof.Machine

/-- The cores a frame holds: the first `min(31, N)`, in index order (40_encoder.md R131). -/
def keptCores (smp : Sample) : List CoreReading := smp.cores.take Config.maxCores

/-- The header `128 + c + 1` (40_encoder.md R132). -/
def headerByte (c : Nat) : Byte := BitVec.ofNat 8 (Config.sof + c + 1)

/-- `ENCODE(N, U, M)` (40_encoder.md R137): the frame, or `none` for IN_RANGE. It reads no register (R138). -/
def encodeFrame (arith : BarArith) (smp : Sample) : Option (List Byte) :=
  match coreBars arith (keptCores smp), barOf arith smp.mem with
  | some bars, some m => some (headerByte (keptCores smp).length :: (bars ++ [m]))
  | _, _ => none

end Sys2Proof.Machine
end

