-- ==== Sys2Proof/Machine/Framing.lean ====
section
/-! DEFINITION. The byte-level framing engine (42_framing.md): the RX cycle that appends a frame (R171, 43_link.md R195), TX_TAKE
(R172), and the wire contract by which a receiver reads frames back (30_encoding.md R102, 42_framing.md R176). -/

namespace Sys2Proof.Machine

/-- The rest of an accepted cycle, once ENCODE gave the frame `f` (43_link.md R195): DECODE, TxAppend, FRAME. -/
def finishCycle (b : Byte) (f : List Byte) (s : State) : State :=
  emit (.frame f) (txAppend f (decodeButtons b s))

/-- RX's rule (43_link.md R195): one full cycle when LS = OPEN and ENDING = 0, ignored otherwise. -/
def rxRule (b : Byte) (s : State) : State :=
  if s.ls = .opened ∧ s.ending = false then
    match encodeFrame s.params.barArith (sampleDraw s) with
    | some f => finishCycle b f s
    | none => raiseFault .inRange s
  else s

/-- RX, EV 0x4 (43_link.md R195). -/
def execRx (b : Byte) (s : State) : Result := onEvent (rxRule b) s

/-- TX_TAKE's rule (42_framing.md R172): the first byte of TXQ leaves on the line. -/
def txTakeRule (s : State) : State :=
  match s.txq with
  | b :: rest => if s.handle then emit (.wire b) { s with txq := rest } else raiseFault .evContext s
  | [] => raiseFault .evContext s

/-- TX_TAKE, EV 0x5 (42_framing.md R172). -/
def execTxTake (s : State) : Result := onEvent txTakeRule s

/-- `L = header[6:0]`, the count of payload bytes after a header (30_encoding.md R90). -/
def payloadLength (header : Byte) : Nat := (header.extractLsb' 0 7).toNat

/-- What a receiver reads as the next frame (42_framing.md R176 (a)): the header, then its `L` payload bytes, and the bytes that
follow; `none` while the stream is too short. The spec leaves open what a receiver does with a first byte that is no header of the
block, 0x80, 0xA1..0xFF or one with bit 7 clear (93_implementation_defined.md U8): it is read as a header too, with `L` its low 7
bits (DESIGN CHOICE, notes/assumptions/18.md). The receiver is no part of the machine. -/
def readFrame : List Byte → Option (List Byte × List Byte)
  | [] => none
  | h :: rest =>
    if payloadLength h ≤ rest.length then some (h :: rest.take (payloadLength h), rest.drop (payloadLength h))
    else none

/-- The frames a receiver reads from a stream, at most `n` of them (42_framing.md R176). -/
def readFrames : Nat → List Byte → List (List Byte)
  | 0, _ => []
  | n + 1, stream =>
    match readFrame stream with
    | some (f, rest) => f :: readFrames n rest
    | none => []

/-- Where a receiver that lost its place finds the next frame: at the next byte with bit 7 set (42_framing.md R178). -/
def resynchronise (stream : List Byte) : List Byte := stream.dropWhile (fun b => !b.getLsbD 7)

/-- What a receiver takes from a frame (42_framing.md R176 (b)): the bars of the cores, and the last payload byte, the memory bar;
no bar at all from a header without payload, which the block never sends (DESIGN CHOICE, notes/assumptions/18.md). -/
def frameBars (f : List Byte) : List Byte × Option Byte := (f.tail.dropLast, f.tail.getLast?)

end Sys2Proof.Machine
end

