-- ==== Sys2Proof/Machine/Link.lean ====
section
/-! DEFINITION. The link-lifecycle state machine (43_link.md R190 to R208): START, OPEN_OK, OPEN_FAIL, LINK_LOST, DISCONNECT,
DRAIN_DONE, CLOSE_DONE, TERMINATE and the internal STEP. -/

namespace Sys2Proof.Machine

/-- START's rule (43_link.md R192). -/
def startRule (s : State) : State :=
  if s.ls = .disconnected then requestOpen { s with ls := .connecting } else raiseFault .evContext s

/-- START, EV 0x1 (43_link.md R192). -/
def execStart (s : State) : Result := onEvent startRule s

/-- OPEN_OK's rule (43_link.md R193). -/
def openOkRule (s : State) : State :=
  if s.ls = .connecting then
    { s with handle := true, retry := 0, ls := if s.ending then .terminating else .opened }
  else raiseFault .evContext s

/-- OPEN_OK, EV 0x2 (43_link.md R193). -/
def execOpenOk (s : State) : Result := onEvent openOkRule s

/-- OPEN_FAIL's rule (43_link.md R194, R202): log it, then retry the open, or terminate. With ENDING = 1 the cause that stands is
kept. -/
def openFailRule (s : State) : State :=
  if s.ls = .connecting then
    if s.ending = false ∧ retryLeft s = true then retryOpen (emit (.log .openFail) s)
    else enterTermination .openFail (emit (.log .openFail) s)
  else raiseFault .evContext s

/-- OPEN_FAIL, EV 0x3 (43_link.md R194). -/
def execOpenFail (s : State) : Result := onEvent openFailRule s

/-- What every LINK_LOST of an open link does first (43_link.md R196): log it, drop the link and the bytes in flight. -/
def dropLink (s : State) : State :=
  { emit (.log .linkLost) s with handle := false, txq := [], dsub := false }

/-- LINK_LOST's rule (43_link.md R196, R202): drop the link, then reconnect from OPEN, or terminate. With ENDING = 1 the cause that
stands is kept. -/
def linkLostRule (s : State) : State :=
  if s.handle then
    if s.ls = .opened ∧ s.ending = false ∧ retryLeft s = true then retryOpen (dropLink s)
    else enterTermination .linkLost (dropLink s)
  else raiseFault .evContext s

/-- LINK_LOST, EV 0x6 (43_link.md R196). -/
def execLinkLost (s : State) : Result := onEvent linkLostRule s

/-- DISCONNECT's rule (43_link.md R197). -/
def disconnectRule (s : State) : State :=
  if s.ls = .opened ∧ s.ending = false then beginDrain .none s else raiseFault .evContext s

/-- DISCONNECT, EV 0x9 (43_link.md R197). -/
def execDisconnect (s : State) : Result := onEvent disconnectRule s

/-- DRAIN_DONE's rule (43_link.md R198): the drain is a barrier, so TXQ must be empty (20_memory.md R80). -/
def drainDoneRule (s : State) : State :=
  if s.ls = .draining ∧ s.dsub = false ∧ s.txq = [] then emit .reqClose { s with dsub := true }
  else raiseFault .evContext s

/-- DRAIN_DONE, EV 0x7 (43_link.md R198). -/
def execDrainDone (s : State) : Result := onEvent drainDoneRule s

/-- CLOSE_DONE's rule (43_link.md R199): the link is closed and the continuation runs. -/
def closeDoneRule (s : State) : State :=
  if s.ls = .draining ∧ s.dsub = true then
    { s with handle := false, dsub := false, ls := if s.cont = .exit then .terminating else .closed }
  else raiseFault .evContext s

/-- CLOSE_DONE, EV 0x8 (43_link.md R199). -/
def execCloseDone (s : State) : Result := onEvent closeDoneRule s

/-- TERMINATE's rule (43_link.md R200). R200 writes no LS in TERMINATING with ENDING = 0, which no reachable state is
(notes/assumptions/12.md). -/
def terminateRule (s : State) : State :=
  if s.ending then s
  else
    match s.ls with
    | .disconnected => enterTermination .signal s
    | .opened => enterTermination .signal s
    | .closed => enterTermination .signal s
    | .connecting => recordCause .signal s
    | .draining => { recordCause .signal s with cont := .exit }
    | .terminating => recordCause .signal s
    | .exited => s

/-- TERMINATE, EV 0xA (43_link.md R200). -/
def execTerminate (s : State) : Result := onEvent terminateRule s

/-- BLOCK's STEP (43_link.md R201): with LS = TERMINATING, start the graceful close or exit. In every other state there is no step,
and nothing changes (notes/assumptions/4.md). -/
def execStep (s : State) : Result :=
  .next (if s.ls = .terminating then (if s.handle then beginDrain .exit s else exitProcess s) else s)

end Sys2Proof.Machine
end

