-- ==== Sys2Proof/Machine/Dispatch.lean ====
section
/-! DEFINITION. The one arm of each event (30_encoding.md R98). -/

namespace Sys2Proof.Machine

def exec (i : Instr) (s : State) : Host.Outcome State Fault Refusal :=
  match i with
  | .start => Sys2Proof.Machine.execStart s
  | .openOk => Sys2Proof.Machine.execOpenOk s
  | .openFail => Sys2Proof.Machine.execOpenFail s
  | .rx data => Sys2Proof.Machine.execRx data s
  | .txTake => Sys2Proof.Machine.execTxTake s
  | .linkLost => Sys2Proof.Machine.execLinkLost s
  | .drainDone => Sys2Proof.Machine.execDrainDone s
  | .closeDone => Sys2Proof.Machine.execCloseDone s
  | .disconnect => Sys2Proof.Machine.execDisconnect s
  | .terminate => Sys2Proof.Machine.execTerminate s
  | .tick => Sys2Proof.Machine.execTick s
  | .step => Sys2Proof.Machine.execStep s

end Sys2Proof.Machine
end

