-- ==== Sys2Proof/Machine/Port.lean ====
section
/-! DEFINITION. The event port: fetching the next stimulus, and accepting a word (43_link.md R191). -/

namespace Sys2Proof.Machine

/-- `Accept(w)` (43_link.md R191): nothing in EXITED, EV_ILLEGAL for an illegal word, else the rule of the event. -/
def acceptWord (w : EventWord) (s : State) : Result :=
  if s.ls = .exited then .next s
  else
    match decode w with
    | .ok i => exec i s
    | .error _ => .next (raiseFault .evIllegal s)

/-- The answer of SampleDraw() that stands beside a stimulus; with none fixed, the free draw of this step (00_scope.md R8,
30_encoding.md R104). -/
def drawOf (index : Nat) : Stimulus → Sample
  | .present _ (some smp) => smp
  | .present _ none => Config.freeDraw index
  | .block => Config.freeDraw index

/-- Take the stimulus `stim` off the schedule, whose rest is `rest`, and set the oracle's answer for this step. -/
def takeStimulus (stim : Stimulus) (rest : List Stimulus) (s : State) : State :=
  { s with schedule := rest, draw := drawOf s.stepIndex stim, stepIndex := s.stepIndex + 1 }

/-- The step that a stimulus is: a word goes through Accept, BLOCK's STEP does not (43_link.md R191, R201). -/
def runStimulus (stim : Stimulus) (s : State) : Result :=
  match stim with
  | .present w _ => acceptWord w s
  | .block => exec .step s

/-- The stimulus that a word of an assembled script stands for, with its sample (30_encoding.md R106): 0xF000 marks a BLOCK
step. -/
def stimulusOfLabel (w : EventWord) (sample : Option Sample) : Stimulus :=
  if w = stepLabel then .block else .present w sample

end Sys2Proof.Machine
end

