-- ==== Sys2Proof/Machine/Step.lean ====
section
/-! DEFINITION. One step of the machine: the next stimulus of the schedule (00_scope.md R5, R10). -/

namespace Sys2Proof.Machine

/-- One atomic step (00_scope.md R5). With no stimulus left nobody takes a step, and nothing changes (60_exceptions.md R244;
notes/assumptions/1.md). -/
def step (s : State) : Host.Outcome State Fault Refusal :=
  match s.schedule with
  | [] => .next s
  | stim :: rest => runStimulus stim (takeStimulus stim rest s)

/-- `s` with the event whose table word is `w` presented next, its draw left free (notes/assumptions/2.md). Every word is 16 bits. -/
def State.withFetchWord (s : State) (_nbits w : Nat) : State :=
  { s with schedule := stimulusOfLabel (BitVec.ofNat 16 w) none :: s.schedule }

end Sys2Proof.Machine
end

