-- ==== Sys2Proof/Machine/Script.lean ====
section
/-! DEFINITION. Event scripts: the expansion of the pseudo-steps (30_encoding.md R105), the assembled words (R106), and loading a
script as the steps the agents take next. Machine/ScriptText.lean reads their text (R104). -/

namespace Sys2Proof.Machine

/-- The stimulus of a plain step (30_encoding.md R106): BLOCK's own STEP, or its event word on the port with its sample. -/
def stimulusOfEvent (i : Instr) (sample : Option Sample) : Stimulus := stimulusOfLabel (encode i) sample

/-- The plain steps a script step stands for (30_encoding.md R105). -/
def expandStep : ScriptStep → List Stimulus
  | .event i sample => [stimulusOfEvent i sample]
  | .word w => [.present w none]
  | .tx n => List.replicate n (stimulusOfEvent .txTake none)
  | .cycle b smp =>
    stimulusOfEvent (.rx b) (some smp) ::
      List.replicate ((keptCores smp).length + 2) (stimulusOfEvent .txTake none)
  | .press smp => [stimulusOfEvent (.rx 0x01) (some smp)]
  | .release smp => [stimulusOfEvent (.rx 0x00) (some smp)]

/-- The plain steps of a script, in the order written (30_encoding.md R104). -/
def expandScript (script : List ScriptStep) : List Stimulus := script.flatMap expandStep

/-- The event word that a plain step assembles to, STEP shown as its label (30_encoding.md R106). -/
def wordOfStimulus : Stimulus → EventWord
  | .present w _ => w
  | .block => stepLabel

/-- The encoding of a script, one event word per step (30_encoding.md R106). -/
def assemble (script : List ScriptStep) : List EventWord := (expandScript script).map wordOfStimulus

/-- The state in which the agents take the steps of `script` next (notes/assumptions/2.md). -/
def loadScript (script : List ScriptStep) (s : State) : State := { s with schedule := expandScript script }

end Sys2Proof.Machine
end

