-- ==== Sys2Proof/Safety.lean ====
section
/-! DEFINITION. What a sound state and a safe run are, in the words the statements use: the invariants of 10_state.md R47, the
events a state admits (43_link.md R190, 60_exceptions.md R235), what OUT says of the outbound stream (20_memory.md R78), the grammar
of a frame (42_framing.md R173), and the environment's duties (60_exceptions.md R242). -/

namespace Sys2Proof.Machine

/-! ## The registers' invariants (10_state.md R47) -/

/-- R47.1 and R47.2: which link states go with ENDING. -/
abbrev EndingFitsLinkState (s : State) : Prop :=
  (s.ending = false → s.ls ∈ [.disconnected, .connecting, .opened, .draining, .closed]) ∧
  (s.ending = true → s.ls ∈ [.connecting, .draining, .terminating, .exited])

/-- R47.3: CAUSE = NONE exactly when ENDING = 0. -/
abbrev CauseFitsEnding (s : State) : Prop := s.cause = .none ↔ s.ending = false

/-- R47.4: which link states go with HANDLE. -/
abbrev HandleFitsLinkState (s : State) : Prop :=
  (s.ls ∈ [.opened, .draining] → s.handle = true) ∧
  (s.ls ∈ [.disconnected, .connecting, .closed, .exited] → s.handle = false)

/-- R47.5: TXQ non-empty implies HANDLE = 1. -/
abbrev QueueNeedsHandle (s : State) : Prop := s.txq ≠ [] → s.handle = true

/-- R47.6: CONT and ENDING. -/
abbrev ContinuationFitsEnding (s : State) : Prop :=
  (s.ls = .draining → s.ending = true → s.cont = .exit) ∧ (s.cont = .exit → s.ending = true)

/-- R47.7: a pending close has an empty TXQ. -/
abbrev CloseNeedsEmptyQueue (s : State) : Prop := s.ls = .draining → s.dsub = true → s.txq = []

/-- R47.8: the one-shot flags are 0 between steps. -/
abbrev OneShotsClear (s : State) : Prop := s.forcedOn = false ∧ s.forcedOff = false

/-- R47.9: EXIT_CODE is none exactly when LS is not EXITED. -/
abbrev ExitCodeFitsLinkState (s : State) : Prop := s.exitCode = none ↔ s.ls ≠ .exited

/-- R47.10: RETRY <= RECONNECT_MAX. -/
abbrev RetryBounded (s : State) : Prop := s.retry.toNat ≤ s.params.reconnectMax.val

/-- The ten invariants of 10_state.md R47. -/
abbrev RegisterInvariants (s : State) : Prop :=
  EndingFitsLinkState s ∧ CauseFitsEnding s ∧ HandleFitsLinkState s ∧ QueueNeedsHandle s ∧ ContinuationFitsEnding s ∧
  CloseNeedsEmptyQueue s ∧ OneShotsClear s ∧ ExitCodeFitsLinkState s ∧ RetryBounded s

/-! ## The events a state admits -/

/-- The events that R190's table lists for a state, with R235's conditions: `true` where the event's guard holds. In EXITED no
event is taken (43_link.md R191), so none is admitted. -/
def admits (i : Instr) (s : State) : Bool :=
  s.ls != .exited &&
  match i with
  | .start => s.ls == .disconnected
  | .openOk => s.ls == .connecting
  | .openFail => s.ls == .connecting
  | .rx _ => true
  | .txTake => s.handle && !s.txq.isEmpty
  | .linkLost => s.handle
  | .drainDone => s.ls == .draining && !s.dsub && s.txq.isEmpty
  | .closeDone => s.ls == .draining && s.dsub
  | .disconnect => s.ls == .opened && !s.ending
  | .terminate => true
  | .tick => true
  | .step => s.ls == .terminating

/-- The changes of LS that R190's table allows, as (LS before, LS after); an event may also leave LS as it is. -/
def linkStateEdges : Instr → List (LinkState × LinkState)
  | .start => [(.disconnected, .connecting)]
  | .openOk => [(.connecting, .opened), (.connecting, .terminating)]
  | .openFail => [(.connecting, .terminating)]
  | .rx _ => []
  | .txTake => []
  | .linkLost => [(.opened, .connecting), (.opened, .terminating), (.draining, .terminating)]
  | .drainDone => []
  | .closeDone => [(.draining, .closed), (.draining, .terminating)]
  | .disconnect => [(.opened, .draining)]
  | .terminate => [(.disconnected, .terminating), (.opened, .terminating), (.closed, .terminating)]
  | .tick => []
  | .step => [(.terminating, .draining), (.terminating, .exited)]

/-! ## What OUT says -/

/-- Whether an action is REQ_OPEN. -/
def isReqOpen : Action → Bool
  | .reqOpen _ _ => true
  | _ => false

/-- The actions emitted since the last REQ_OPEN (20_memory.md R78), or all of them before the first. -/
def sinceReqOpen (out : List Action) : List Action :=
  out.foldl (fun seg a => if isReqOpen a then [] else seg ++ [a]) []

/-- The frames that OUT's FRAME actions carry, in order. -/
def framesOf (out : List Action) : List (List Byte) :=
  out.filterMap fun a => match a with | .frame f => some f | _ => none

/-- The bytes that OUT's WIRE actions carry, in order. -/
def wiresOf (out : List Action) : List Byte :=
  out.filterMap fun a => match a with | .wire b => some b | _ => none

/-- The kinds of OUT's LOG actions, in order. -/
def logsOf (out : List Action) : List LogKind :=
  out.filterMap fun a => match a with | .log k => some k | _ => none

/-- The codes of OUT's EXIT actions, in order. -/
def exitsOf (out : List Action) : List Nat :=
  out.filterMap fun a => match a with | .exit c => some c | _ => none

/-- OUT's REQ_DRAIN and REQ_CLOSE actions, in order. -/
def closingRequestsOf (out : List Action) : List Action :=
  out.filter fun a => a == .reqDrain || a == .reqClose

/-- The display-power commands of OUT, in order. -/
def displayCommandsOf (out : List Action) : List Action :=
  out.filter fun a => a == .cmdDisplayOn || a == .cmdDisplayOff

/-- The grammar of one frame (42_framing.md R173): a header `0x80 | L` with `1 <= L <= 32`, then exactly `L` bytes in
0x00..0x7F. -/
def isFrame : List Byte → Bool
  | [] => false
  | h :: payload =>
    decide (0x81 ≤ h.toNat) && decide (h.toNat ≤ 0xA0) && h.toNat == 128 + payload.length &&
      payload.all fun b => decide (b.toNat < 128)

/-- The outbound stream is what the frames say (20_memory.md R78, 42_framing.md R173): every FRAME is a frame, the bytes on the
wire since the last REQ_OPEN are a prefix of its frames joined, and while the link is open the rest is TXQ; while an open is pending
nothing has been written. -/
abbrev StreamInvariant (s : State) : Prop :=
  (∀ f ∈ framesOf s.out, isFrame f = true) ∧
  wiresOf (sinceReqOpen s.out) <+: (framesOf (sinceReqOpen s.out)).flatten ∧
  (s.handle = true →
    (framesOf (sinceReqOpen s.out)).flatten = wiresOf (sinceReqOpen s.out) ++ s.txq) ∧
  (s.ls = .connecting → framesOf (sinceReqOpen s.out) = [])

/-- OUT holds one EXIT action exactly when EXIT_CODE holds its code (10_state.md R43, R44). -/
abbrev ExitLogged (s : State) : Prop := exitsOf s.out = s.exitCode.toList

/-- No link is open and none is about to be used: never opened, or already lost or closed for termination (43_link.md R206). -/
abbrev NoLink (s : State) : Prop :=
  s.handle = false ∧ s.ls ∈ [.disconnected, .connecting, .terminating, .exited]

/-! ## The environment's side (60_exceptions.md R242, 00_scope.md R9) -/

/-- The range contract of 00_scope.md R9: every valid core's value and the memory fraction are numbers in [0, 1]. -/
def sampleInContract (arith : BarArith) (smp : Sample) : Bool :=
  (smp.cores.all fun c => !c.valid || (unitValue arith c.value).isSome) && (unitValue arith smp.mem).isSome

/-- Whether a stimulus presents START. -/
def presentsStart : Stimulus → Bool
  | .present w _ =>
    match decode w with
    | .ok i => i == .start
    | .error _ => false
  | .block => false

/-- Whether R242 (60_exceptions.md) lets the event's agent present it in a state, after the stimuli `past` of the run: HOST
presents START once, and nothing after EXIT; LINK answers what is pending; TIMER stops at EXITED (notes/assumptions/19.md). -/
def dutyAllows (past : List Stimulus) (i : Instr) (s : State) : Bool :=
  match i with
  | .start => !past.any presentsStart && s.ls != .exited
  | .openOk => s.ls == .connecting
  | .openFail => s.ls == .connecting
  | .rx _ => true
  | .txTake => !s.txq.isEmpty
  | .linkLost => s.handle
  | .drainDone => s.ls == .draining && !s.dsub && s.txq.isEmpty
  | .closeDone => s.ls == .draining && s.dsub
  | .disconnect => s.ls != .exited
  | .terminate => s.ls != .exited
  | .tick => s.ls != .exited
  | .step => s.ls == .terminating

/-- Whether SampleSource keeps the range contract in a step (60_exceptions.md R242): a sample is drawn by an accepted RX only. -/
def drawKeepsContract (i : Instr) (smp : Sample) (s : State) : Bool :=
  match i with
  | .rx _ => s.ls != .opened || s.ending || sampleInContract s.params.barArith smp
  | _ => true

/-- Whether a stimulus is one that R242 allows in a state after the stimuli `past`, its draw included; no agent presents an illegal
word. -/
def stimulusAllowed (past : List Stimulus) (stim : Stimulus) (s : State) : Bool :=
  match stim with
  | .present w _ =>
    match decode w with
    | .ok i => dutyAllows past i s && drawKeepsContract i (drawOf s.stepIndex stim) s
    | .error _ => false
  | .block => dutyAllows past .step s

/-- Whether the environment keeps its duties of R242 while the stimuli `sched` are taken from a state, after the stimuli `past`. -/
def keepsDuties (past : List Stimulus) (sched : List Stimulus) (s : State) : Bool :=
  match sched with
  | [] => true
  | stim :: rest =>
    stimulusAllowed past stim s &&
      match runStimulus stim (takeStimulus stim rest s) with
      | .next t => keepsDuties (past ++ [stim]) rest t
      | _ => false

end Sys2Proof.Machine
end

