-- ==== Sys2Proof/Certificates/Slice0/Obligations.lean ====
section
/-! DEFINITION. The statements for the provers. Each docstring names the rule of spec/ it formalises. -/

open Sys2Proof Sys2Proof.Machine

/-! ## Encoding and decoding -/

/-- 95_test_vectors.md section 6: words written out from the event map decode to what the map says. -/
def Obligations.EventWordSamplesDecode : Prop :=
  decode 0x1000 = .ok .start ∧ decode 0x2000 = .ok .openOk ∧ decode 0x40FF = .ok (.rx 0xFF) ∧
  decode 0x8000 = .ok .closeDone ∧ decode 0xA000 = .ok .terminate ∧ decode 0xB000 = .ok .tick ∧
  decode 0x0000 = .error .reservedEvent ∧ decode 0x1001 = .error .dataNotZero ∧ decode 0xA800 = .error .reservedBits ∧
  decode 0xF000 = .error .stepOnPort ∧ decodeLabel 0xF000 = .ok .step

/-- 30_encoding.md R98, R99, R103, R106: on the port the decoder and the encoder are inverse to each other, every byte of RX
included; and the decoder of a script's word reads every event, STEP included, from its word. -/
def Obligations.DecodeInvertsEncode : Prop :=
  (∀ i : Instr, i.wellFormed = true → decode (encode i) = .ok i) ∧
  (∀ (w : EventWord) (i : Instr), decode w = .ok i → i.wellFormed = true ∧ encode i = w) ∧
  (∀ i : Instr, decodeLabel (encode i) = .ok i)

/-- 30_encoding.md R100: the illegal words are exactly R100's three kinds, and Accept of one, outside EXITED, raises EV_ILLEGAL and
changes nothing else. -/
def Obligations.IllegalWordsRaiseEvIllegal : Prop :=
  (∀ w : EventWord, (∃ e, decode w = .error e) ↔
    (w.ev = 0x0 ∨ w.ev = 0xC ∨ w.ev = 0xD ∨ w.ev = 0xE ∨ w.ev = 0xF) ∨ w.rsv ≠ 0 ∨ (w.ev ≠ 0x4 ∧ w.data ≠ 0)) ∧
  (∀ (s : State) (w : EventWord), s.ls ≠ .exited →
    ((w.ev = 0x0 ∨ w.ev = 0xC ∨ w.ev = 0xD ∨ w.ev = 0xE ∨ w.ev = 0xF) ∨ w.rsv ≠ 0 ∨ (w.ev ≠ 0x4 ∧ w.data ≠ 0)) →
    acceptWord w s = .next { s with fault := s.fault ||| 0b001 })

/-- 43_link.md R191, 00_scope.md R5, R8, in the model's own terms (notes/assumptions/1.md, 3.md and 9.md): a step takes the first
stimulus off the schedule, sets the oracle's answer (the sample beside the word, or the free draw of this step), and runs the
decoded event from there; BLOCK's STEP does not pass through the port; an illegal word raises EV_ILLEGAL; with LS = EXITED there
is no step, and with no stimulus either. -/
def Obligations.StepRunsTheDecodedEvent : Prop :=
  ∀ s : State,
    (s.schedule = [] → step s = .next s) ∧
    (∀ rest, s.schedule = .block :: rest →
      step s = exec .step
        { s with schedule := rest, draw := Config.freeDraw s.stepIndex, stepIndex := s.stepIndex + 1 }) ∧
    (∀ w smp rest, s.schedule = .present w smp :: rest →
      let t : State :=
        { s with schedule := rest, draw := smp.getD (Config.freeDraw s.stepIndex), stepIndex := s.stepIndex + 1 }
      (∀ i, decode w = .ok i → step s = exec i t) ∧
      (∀ e, decode w = .error e → s.ls ≠ .exited → step s = .next { t with fault := t.fault ||| 0b001 }) ∧
      (s.ls = .exited → step s = .next t))

/-! ## Reset -/

/-- 70_reset_and_hazards.md R260: every piece of state at its reset value, for every value of the parameters; MON_ON is
MON_ON_RESET. -/
def Obligations.ResetSetsEveryRegister : Prop :=
  let atReset (s : State) (monOnReset : Bool) : Prop :=
    s.ls = .disconnected ∧ s.ending = false ∧ s.handle = false ∧ s.dsub = false ∧ s.cont = .none ∧ s.cause = .none ∧
    s.retry = 0 ∧ s.prevButtons = 0x00 ∧ s.monOn = monOnReset ∧ s.forcedOn = false ∧ s.forcedOff = false ∧ s.fault = 0 ∧
    s.exitCode = none ∧ s.txq = [] ∧ s.out = []
  atReset State.reset Config.monOnReset ∧ ∀ p : Params, atReset (State.resetWith p) p.monOnReset

/-- 10_state.md R47, 20_memory.md R78: the state after reset meets the invariants, whatever the parameters. -/
def Obligations.InvariantsHoldAtReset : Prop :=
  ∀ p : Params,
    RegisterInvariants (State.resetWith p) ∧ StreamInvariant (State.resetWith p) ∧ ExitLogged (State.resetWith p)

/-! ## The link events: what each one does, and that it completes -/

/-- 43_link.md R192: START begins connecting from DISCONNECTED, and is EV_CONTEXT in every other state it is taken in. -/
def Obligations.StartBeginsConnecting : Prop :=
  encode .start = 0x1000 ∧
  ∀ s : State,
    (s.ls = .disconnected →
      exec .start s =
        .next { s with ls := .connecting, out := s.out ++ [.reqOpen s.params.portPath s.params.baud] }) ∧
    (s.ls ≠ .disconnected → s.ls ≠ .exited → exec .start s = .next { s with fault := s.fault ||| 0b010 })

/-- 43_link.md R193: OPEN_OK opens the link, or enters termination when ENDING = 1; EV_CONTEXT when no open is pending. -/
def Obligations.OpenOkOpensTheLink : Prop :=
  encode .openOk = 0x2000 ∧
  ∀ s : State,
    (s.ls = .connecting → s.ending = false →
      exec .openOk s = .next { s with handle := true, retry := 0, ls := .opened }) ∧
    (s.ls = .connecting → s.ending = true →
      exec .openOk s = .next { s with handle := true, retry := 0, ls := .terminating }) ∧
    (s.ls ≠ .connecting → s.ls ≠ .exited → exec .openOk s = .next { s with fault := s.fault ||| 0b010 })

/-- 43_link.md R194: OPEN_FAIL is logged; it retries the open while RETRY < RECONNECT_MAX, else it ends the run with its cause,
unless a cause stands already; EV_CONTEXT when no open is pending. -/
def Obligations.OpenFailRetriesOrTerminates : Prop :=
  encode .openFail = 0x3000 ∧
  ∀ s : State,
    (s.ls = .connecting → s.ending = true →
      exec .openFail s = .next { s with ls := .terminating, out := s.out ++ [.log .openFail] }) ∧
    (s.ls = .connecting → s.ending = false → s.retry.toNat < s.params.reconnectMax.val →
      exec .openFail s =
        .next { s with
          retry := s.retry + 1
          out := s.out ++ [.log .openFail, .reqOpen s.params.portPath s.params.baud] }) ∧
    (s.ls = .connecting → s.ending = false → ¬ s.retry.toNat < s.params.reconnectMax.val →
      exec .openFail s =
        .next { s with ending := true, cause := .openFail, ls := .terminating, out := s.out ++ [.log .openFail] }) ∧
    (s.ls ≠ .connecting → s.ls ≠ .exited → exec .openFail s = .next { s with fault := s.fault ||| 0b010 })

/-- 43_link.md R195 with 41_decoder.md R151, R152 and 42_framing.md R171: an RX in OPEN with ENDING = 0 whose draw ENCODE turns
into the frame `f` sets MON_ON on a 0 to 1 edge of bit 0, clears it on a 1 to 0 edge, keeps it else, stores the byte, appends `f` to
TXQ and emits FRAME(f); an out-of-range draw changes only FAULT; every other RX changes nothing. -/
def Obligations.RxRunsOneCycle : Prop :=
  (∀ b : Byte, encode (.rx b) = 0x4000 ||| b.setWidth 16) ∧
  ∀ (s : State) (b : Byte),
    (∀ f, s.ls = .opened → s.ending = false → encodeFrame s.params.barArith s.draw = some f →
      exec (.rx b) s =
        .next { s with
          monOn :=
            if s.prevButtons.getLsbD 0 = false ∧ b.getLsbD 0 = true then true
            else if s.prevButtons.getLsbD 0 = true ∧ b.getLsbD 0 = false then false
            else s.monOn
          prevButtons := b
          txq := s.txq ++ f
          out := s.out ++ [.frame f] }) ∧
    (s.ls = .opened → s.ending = false → encodeFrame s.params.barArith s.draw = none →
      exec (.rx b) s = .next { s with fault := s.fault ||| 0b100 }) ∧
    (s.ls ≠ .opened ∨ s.ending = true → exec (.rx b) s = .next s)

/-- 43_link.md R196: LINK_LOST of an open link is logged and drops the link and the bytes in flight; it reconnects from OPEN while
RETRY < RECONNECT_MAX, else it ends the run, with its own cause unless a cause stands already; EV_CONTEXT with no link open. -/
def Obligations.LinkLostReconnectsOrTerminates : Prop :=
  encode .linkLost = 0x6000 ∧
  ∀ s : State,
    (s.handle = true → s.ls = .opened → s.ending = false → s.retry.toNat < s.params.reconnectMax.val →
      exec .linkLost s =
        .next { s with
          handle := false, txq := [], dsub := false, retry := s.retry + 1, ls := .connecting
          out := s.out ++ [.log .linkLost, .reqOpen s.params.portPath s.params.baud] }) ∧
    (s.handle = true → s.ls ≠ .exited → s.ending = false →
      (s.ls ≠ .opened ∨ ¬ s.retry.toNat < s.params.reconnectMax.val) →
      exec .linkLost s =
        .next { s with
          handle := false, txq := [], dsub := false, ending := true, cause := .linkLost, ls := .terminating
          out := s.out ++ [.log .linkLost] }) ∧
    (s.handle = true → s.ls ≠ .exited → s.ending = true →
      exec .linkLost s =
        .next { s with
          handle := false, txq := [], dsub := false, ls := .terminating, out := s.out ++ [.log .linkLost] }) ∧
    (s.handle = false → s.ls ≠ .exited → exec .linkLost s = .next { s with fault := s.fault ||| 0b010 })

/-- 43_link.md R197: DISCONNECT starts a graceful close with no continuation, from OPEN with ENDING = 0 only. -/
def Obligations.DisconnectStartsTheDrain : Prop :=
  encode .disconnect = 0x9000 ∧
  ∀ s : State,
    (s.ls = .opened → s.ending = false →
      exec .disconnect s =
        .next { s with ls := .draining, dsub := false, cont := .none, out := s.out ++ [.reqDrain] }) ∧
    (s.ls ≠ .opened ∨ s.ending = true → s.ls ≠ .exited →
      exec .disconnect s = .next { s with fault := s.fault ||| 0b010 })

/-- 43_link.md R198: DRAIN_DONE requests the close once TXQ is empty; EV_CONTEXT with no drain pending or bytes in flight. -/
def Obligations.DrainDoneRequestsTheClose : Prop :=
  encode .drainDone = 0x7000 ∧
  ∀ s : State,
    (s.ls = .draining → s.dsub = false → s.txq = [] →
      exec .drainDone s = .next { s with dsub := true, out := s.out ++ [.reqClose] }) ∧
    (s.ls ≠ .draining ∨ s.dsub = true ∨ s.txq ≠ [] → s.ls ≠ .exited →
      exec .drainDone s = .next { s with fault := s.fault ||| 0b010 })

/-- 43_link.md R199: CLOSE_DONE closes the link and runs the continuation; EV_CONTEXT with no close pending. -/
def Obligations.CloseDoneRunsTheContinuation : Prop :=
  encode .closeDone = 0x8000 ∧
  ∀ s : State,
    (s.ls = .draining → s.dsub = true → s.cont = .none →
      exec .closeDone s = .next { s with handle := false, dsub := false, ls := .closed }) ∧
    (s.ls = .draining → s.dsub = true → s.cont = .exit →
      exec .closeDone s = .next { s with handle := false, dsub := false, ls := .terminating }) ∧
    (s.ls ≠ .draining ∨ s.dsub = false → s.ls ≠ .exited →
      exec .closeDone s = .next { s with fault := s.fault ||| 0b010 })

/-- 43_link.md R200: TERMINATE changes nothing with ENDING = 1; else it records ENDING and CAUSE = SIGNAL and moves on by the link
state. -/
def Obligations.TerminateRecordsTheSignal : Prop :=
  encode .terminate = 0xA000 ∧
  ∀ s : State,
    (s.ending = true → exec .terminate s = .next s) ∧
    (s.ending = false → s.ls = .disconnected ∨ s.ls = .opened ∨ s.ls = .closed →
      exec .terminate s = .next { s with ending := true, cause := .signal, ls := .terminating }) ∧
    (s.ending = false → s.ls = .connecting →
      exec .terminate s = .next { s with ending := true, cause := .signal }) ∧
    (s.ending = false → s.ls = .draining →
      exec .terminate s = .next { s with ending := true, cause := .signal, cont := .exit })

/-- 43_link.md R201 and R203: STEP in TERMINATING starts the graceful close of an open link, or exits with the code of the cause:
ExitCode(SIGNAL) = 0, ExitCode(OPEN_FAIL) = ExitCode(LINK_LOST) = FAIL_EXIT_CODE. Outside TERMINATING see
StepIsIdleOutsideTerminating. -/
def Obligations.StepDrainsOrExits : Prop :=
  encode .step = 0xF000 ∧
  ∀ s : State, s.ls = .terminating →
    (s.handle = true →
      exec .step s = .next { s with ls := .draining, dsub := false, cont := .exit, out := s.out ++ [.reqDrain] }) ∧
    (s.handle = false → s.cause = .signal →
      exec .step s = .next { s with ls := .exited, exitCode := some 0, out := s.out ++ [.exit 0] }) ∧
    (s.handle = false → s.cause = .openFail ∨ s.cause = .linkLost →
      exec .step s =
        .next { s with
          ls := .exited, exitCode := some s.params.failExitCode, out := s.out ++ [.exit s.params.failExitCode] })

/-- The model's choice (notes/assumptions/4.md, DEDUCED): R201's "STEP has no step when LS is not TERMINATING" is a step that
changes nothing. -/
def Obligations.StepIsIdleOutsideTerminating : Prop :=
  ∀ s : State, s.ls ≠ .terminating → exec .step s = .next s

/-- 42_framing.md R172: TX_TAKE takes the first byte of TXQ to the wire, in every state with a link open; EV_CONTEXT when no link
is open or TXQ is empty; nothing in EXITED. -/
def Obligations.TxTakeSendsTheFirstByte : Prop :=
  encode .txTake = 0x5000 ∧
  ∀ s : State,
    (∀ b rest, s.ls ≠ .exited → s.handle = true → s.txq = b :: rest →
      exec .txTake s = .next { s with txq := rest, out := s.out ++ [.wire b] }) ∧
    (s.ls ≠ .exited → s.handle = false ∨ s.txq = [] →
      exec .txTake s = .next { s with fault := s.fault ||| 0b010 }) ∧
    (s.ls = .exited → exec .txTake s = .next s)

/-- 41_decoder.md R155, R158: TICK in every state but EXITED emits its command unless the one-shot flag stands, and leaves both
flags 0; in EXITED it does nothing. -/
def Obligations.TickForcesTheDisplay : Prop :=
  encode .tick = 0xB000 ∧
  ∀ s : State,
    (s.ls ≠ .exited → s.monOn = true → s.forcedOn = false →
      exec .tick s = .next { s with forcedOn := false, forcedOff := false, out := s.out ++ [.cmdDisplayOn] }) ∧
    (s.ls ≠ .exited → s.monOn = false → s.forcedOff = false →
      exec .tick s = .next { s with forcedOn := false, forcedOff := false, out := s.out ++ [.cmdDisplayOff] }) ∧
    (s.ls ≠ .exited → (s.monOn = true ∧ s.forcedOn = true) ∨ (s.monOn = false ∧ s.forcedOff = true) →
      exec .tick s = .next { s with forcedOn := false, forcedOff := false }) ∧
    (s.ls = .exited → exec .tick s = .next s)

/-! ## TICK over many ticks -/

/-- 41_decoder.md R156: the command is issued again on every tick: `n` ticks emit it `n` times and change nothing else but the
model's own fields. -/
def Obligations.EveryTickReissuesTheCommand : Prop :=
  ∀ (n : Nat) (s : State), s.ls ≠ .exited → s.forcedOn = false → s.forcedOff = false →
    s.schedule = List.replicate n (.present 0xB000 none) →
    ∃ t, Sys2Proof.core.run n s = .next t ∧
      t = { s with
        out := s.out ++ List.replicate n (if s.monOn then .cmdDisplayOn else .cmdDisplayOff)
        schedule := [], draw := t.draw, stepIndex := s.stepIndex + n }

/-- 41_decoder.md R157, an inference of the spec from R155: in a state the block reaches, every TICK emits exactly one
display-power command, which MON_ON decides. -/
def Obligations.EveryTickEmitsOneCommand : Prop :=
  ∀ s : State, RegisterInvariants s → s.ls ≠ .exited →
    ∃ t, exec .tick s = .next t ∧
      displayCommandsOf t.out =
        displayCommandsOf s.out ++ [if s.monOn then .cmdDisplayOn else .cmdDisplayOff]

/-- 41_decoder.md R158: TICK reads no link register: two states that agree on MON_ON and the one-shot flags, neither EXITED, emit
the same actions, whatever their link registers say. -/
def Obligations.TickReadsNoLinkRegister : Prop :=
  ∀ s t : State, s.ls ≠ .exited → t.ls ≠ .exited →
    s.monOn = t.monOn → s.forcedOn = t.forcedOn → s.forcedOff = t.forcedOff →
    ∃ actions : List Action,
      exec .tick s = .next { s with forcedOn := false, forcedOff := false, out := s.out ++ actions } ∧
      exec .tick t = .next { t with forcedOn := false, forcedOff := false, out := t.out ++ actions }

/-! ## The button decoder -/

/-- 41_decoder.md R150, and what the spec infers from its two formulas: only bit 0 can be set in an edge mask, the masks are never
both non-zero, and each says its edge. -/
def Obligations.EdgeMasksSeeBitZeroOnly : Prop :=
  ∀ prev b : Byte,
    (pressedEdges prev b = if prev.getLsbD 0 = false ∧ b.getLsbD 0 = true then 1 else 0) ∧
    (releasedEdges prev b = if prev.getLsbD 0 = true ∧ b.getLsbD 0 = false then 1 else 0) ∧
    (pressedEdges prev b = 0 ∨ releasedEdges prev b = 0)

/-- 41_decoder.md R153: bits 7:1 of the byte and of PREV_BUTTONS decide nothing but what PREV_BUTTONS holds next: two accepted or
ignored RX whose bytes agree in bit 0, from states whose PREV_BUTTONS agree in bit 0, end alike but for PREV_BUTTONS, which stores
the whole byte; and a byte that differs from PREV_BUTTONS in reserved bits alone leaves MON_ON unchanged. -/
def Obligations.ReservedButtonBitsDecideNothing : Prop :=
  ∀ (s : State) (p b b' : Byte), s.prevButtons.getLsbD 0 = p.getLsbD 0 → b.getLsbD 0 = b'.getLsbD 0 →
    ∃ t t' : State, exec (.rx b) s = .next t ∧ exec (.rx b') { s with prevButtons := p } = .next t' ∧
      t' = { t with prevButtons := t'.prevButtons } ∧
      ((t.prevButtons = b ∧ t'.prevButtons = b') ∨ (t.prevButtons = s.prevButtons ∧ t'.prevButtons = p)) ∧
      (b.getLsbD 0 = s.prevButtons.getLsbD 0 → t.monOn = s.monOn)

/-- 41_decoder.md R159: MON_ON and PREV_BUTTONS survive every event but RX. -/
def Obligations.MonitorStateSurvivesLinkEvents : Prop :=
  ∀ (i : Instr) (s t : State), (∀ b, i ≠ .rx b) → exec i s = .next t →
    t.monOn = s.monOn ∧ t.prevButtons = s.prevButtons

/-! ## The frame encoder -/

/-- 40_encoder.md R141: the length law and the header. -/
def Obligations.FrameLengthAndHeaderLaw : Prop :=
  ∀ (arith : BarArith) (smp : Sample) (f : List Byte), encodeFrame arith smp = some f →
    f.length = min 31 smp.cores.length + 2 ∧
    (f[0]?).map BitVec.toNat = some (128 + min 31 smp.cores.length + 1)

/-- 40_encoder.md R134, R135: byte `i + 1` of a frame is core `i`'s bar, 0 for an invalid core, and the last byte is the memory's
bar. With R133's BAR_ARITH = EXACT, a value that is the rational `x` is in [0, 1] and its byte is the floor of 127 times `x`, for a
valid core and for the memory. -/
def Obligations.FrameBytesAreTheBars : Prop :=
  (∀ (arith : BarArith) (smp : Sample) (f : List Byte), encodeFrame arith smp = some f →
    (∀ (i : Nat) (c : CoreReading), i < 31 → smp.cores[i]? = some c →
      (c.valid = false → f[i + 1]? = some 0) ∧
      (c.valid = true → ∃ q, unitValue arith c.value = some q ∧ f[i + 1]? = some (quantise arith q))) ∧
    (∃ q, unitValue arith smp.mem = some q ∧ f[min 31 smp.cores.length + 1]? = some (quantise arith q))) ∧
  (∀ (smp : Sample) (f : List Byte), encodeFrame .exact smp = some f →
    (∀ (i : Nat) (c : CoreReading) (x : Rat), i < 31 → smp.cores[i]? = some c → c.valid = true → c.value = .rational x →
      0 ≤ x ∧ x ≤ 1 ∧ ∃ b, f[i + 1]? = some b ∧ (b.toNat : Int) = ⌊127 * x⌋) ∧
    (∀ x : Rat, smp.mem = .rational x →
      0 ≤ x ∧ x ≤ 1 ∧ ∃ b, f[min 31 smp.cores.length + 1]? = some b ∧ (b.toNat : Int) = ⌊127 * x⌋))

/-- 40_encoder.md R134, R136: ENCODE reads neither the value of an invalid core nor any core past the first 31: two samples that
agree elsewhere give the same result, frame or fault. -/
def Obligations.UnreadCoresDoNotMatter : Prop :=
  ∀ (arith : BarArith) (smp smp' : Sample),
    min 31 smp.cores.length = min 31 smp'.cores.length → smp.mem = smp'.mem →
    (∀ (i : Nat) (c c' : CoreReading), i < 31 → smp.cores[i]? = some c → smp'.cores[i]? = some c' →
      c.valid = c'.valid ∧ (c.valid = true → c.value = c'.value)) →
    encodeFrame arith smp = encodeFrame arith smp'

/-- 40_encoder.md R136, whose binary64 part is the spec's general knowledge and the model's reading (notes/assumptions/10.md,
11.md): IN_RANGE is raised exactly when a valid core among the first 31, or the memory fraction, is not a number in [0, 1]; under
EXACT a rational is refused exactly when it is below 0 or above 1; under BINARY64 a NaN or an infinity is no number; and the RX that
drew such a sample changes nothing but FAULT. -/
def Obligations.InRangeIsRaisedExactly : Prop :=
  (∀ (arith : BarArith) (smp : Sample), encodeFrame arith smp = none ↔
    (∃ i c, i < 31 ∧ smp.cores[i]? = some c ∧ c.valid = true ∧
      ¬ ∃ q, numberValue arith c.value = some q ∧ 0 ≤ q ∧ q ≤ 1) ∨
    ¬ ∃ q, numberValue arith smp.mem = some q ∧ 0 ≤ q ∧ q ≤ 1) ∧
  (∀ (smp : Sample) (m : Rat), smp.mem = .rational m →
    (∀ i c, i < 31 → smp.cores[i]? = some c → c.valid = true → ∃ x, c.value = .rational x) →
    (encodeFrame .exact smp = none ↔
      (∃ i c x, i < 31 ∧ smp.cores[i]? = some c ∧ c.valid = true ∧ c.value = .rational x ∧ (x < 0 ∨ 1 < x)) ∨
      m < 0 ∨ 1 < m)) ∧
  (∀ w : BitVec 64, w.extractLsb' 52 11 = 0x7FF → numberValue .binary64 (.binary64 w) = none) ∧
  (∀ (s : State) (b : Byte), s.ls = .opened → s.ending = false → encodeFrame s.params.barArith s.draw = none →
    exec (.rx b) s = .next { s with fault := s.fault ||| 0b100 })

/-- 00_scope.md R9 with 40_encoder.md R137: a draw that keeps the range contract always gives a frame. -/
def Obligations.ContractDrawsAreEncoded : Prop :=
  ∀ (arith : BarArith) (smp : Sample), sampleInContract arith smp = true → ∃ f, encodeFrame arith smp = some f

/-- 40_encoder.md R140, an inference of the spec: when every core is invalid the frame is the header, zeros, and the memory's bar.
-/
def Obligations.WarmUpFrameIsZeros : Prop :=
  ∀ (arith : BarArith) (smp : Sample) (q : Rat), (∀ c ∈ smp.cores, c.valid = false) → unitValue arith smp.mem = some q →
    encodeFrame arith smp =
      some (BitVec.ofNat 8 (128 + min 31 smp.cores.length + 1) ::
        (List.replicate (min 31 smp.cores.length) 0 ++ [quantise arith q]))

/-- 40_encoder.md R133, BAR_ARITH = EXACT: the bar is the exact floor of 127 times the value, so it is `k` exactly for values from
k/127 up to (k+1)/127, and 127 at 1. -/
def Obligations.ExactBarIsTheFloor : Prop :=
  ∀ x : Rat, 0 ≤ x → x ≤ 1 →
    ((quantise .exact x).toNat : Int) = ⌊127 * x⌋ ∧
    (∀ k : Nat, k ≤ 126 → ((quantise .exact x).toNat = k ↔ (k : Rat) / 127 ≤ x ∧ x < ((k : Rat) + 1) / 127)) ∧
    ((quantise .exact x).toNat = 127 ↔ x = 1)

/-- 40_encoder.md R133, what the spec infers of both settings (BINARY64 as notes/assumptions/11.md reads it): both settings of
BAR_ARITH give 0 at 0 and 127 at 1, and both are monotone. -/
def Obligations.BarsAreMonotone : Prop :=
  ∀ arith : BarArith,
    quantise arith 0 = 0 ∧ quantise arith 1 = 127 ∧
    ∀ x y : Rat, 0 ≤ x → x ≤ y → y ≤ 1 → (quantise arith x).toNat ≤ (quantise arith y).toNat

/-- 40_encoder.md R133, R139, 30_encoding.md R92, R93, in part inferences of the spec: a bar is the floor of the exact product under
EXACT, and of the product rounded to binary64 under BINARY64 (the rounding: notes/assumptions/11.md); it never exceeds 127, so its
bit 7 is clear, under both settings. -/
def Obligations.BarsFitSevenBits : Prop :=
  ∀ x : Rat, 0 ≤ x → x ≤ 1 →
    ((quantise .exact x).toNat : Int) = ⌊127 * x⌋ ∧
    ((quantise .binary64 x).toNat : Int) = ⌊nearestBinary64 (127 * x)⌋ ∧
    (∀ arith : BarArith,
      (scaledValue arith x).floor = ((quantise arith x).toNat : Int) ∧ (quantise arith x).toNat ≤ 127 ∧
      (quantise arith x).getLsbD 7 = false)

/-- 40_encoder.md R133 and 93_implementation_defined.md K2, as the model reads binary64 (notes/assumptions/10.md and 11.md,
PRESUMED): the rounding of BINARY64 gives a number of at most 53 significant bits and least exponent -1074, and no such number is
nearer; half way between two neighbours it gives the one whose last bit is 0; it is odd in the sign. A finite binary64 word stands
for the number of its sign, exponent and fraction fields, an infinity or a NaN for none, under either setting; and a rational stands
for itself under EXACT and for its rounding under BINARY64. -/
def Obligations.RoundingIsToTheNearestBinary64 : Prop :=
  (∀ q : Rat,
    (∃ (m : Int) (e : Int), m.natAbs ≤ 2 ^ 53 ∧ -1074 ≤ e ∧ nearestBinary64 q = (m : Rat) * (2 : Rat) ^ e) ∧
    (∀ (m : Int) (e : Int), m.natAbs ≤ 2 ^ 53 → -1074 ≤ e →
      |nearestBinary64 q - q| ≤ |(m : Rat) * (2 : Rat) ^ e - q|)) ∧
  (∀ (m : Nat) (e : Int), m < 2 ^ 53 → -1074 ≤ e → 2 ^ 52 ≤ m ∨ e = -1074 →
    nearestBinary64 (((m : Rat) + 1 / 2) * (2 : Rat) ^ e) = ((if m % 2 = 0 then m else m + 1 : Nat) : Rat) * (2 : Rat) ^ e) ∧
  (∀ q : Rat, nearestBinary64 (-q) = -nearestBinary64 q) ∧
  (∀ w : BitVec 64,
    let sign : Rat := if w.getLsbD 63 = true then -1 else 1
    let e : Nat := (w.extractLsb' 52 11).toNat
    let f : Nat := (w.extractLsb' 0 52).toNat
    (e = 2047 → binary64Value w = none) ∧
    (e = 0 → binary64Value w = some (sign * f * (2 : Rat) ^ (-1074 : Int))) ∧
    (e ≠ 0 → e ≠ 2047 → binary64Value w = some (sign * (2 ^ 52 + f : Nat) * (2 : Rat) ^ ((e : Int) - 1075)))) ∧
  (∀ (arith : BarArith) (w : BitVec 64), numberValue arith (.binary64 w) = binary64Value w) ∧
  (∀ q : Rat, numberValue .exact (.rational q) = some q ∧ numberValue .binary64 (.rational q) = some (nearestBinary64 q))

/-- 30_encoding.md R95, an inference of the spec: a byte of a frame has bit 7 set exactly when it is the header, and the header is
in 0x81..0xA0. -/
def Obligations.OnlyHeadersHaveBitSeven : Prop :=
  ∀ (arith : BarArith) (smp : Sample) (f : List Byte), encodeFrame arith smp = some f →
    ∀ (i : Nat) (b : Byte), f[i]? = some b →
      (b.getLsbD 7 = true ↔ i = 0) ∧ (i = 0 → 0x81 ≤ b.toNat ∧ b.toNat ≤ 0xA0)

/-! ## The outbound stream -/

/-- 42_framing.md R176, 30_encoding.md R102 (the receiver: notes/assumptions/18.md): a receiver that reads a header, then as many
bytes as it says, recovers the frames of a stream exactly, and takes from each its core bars and its memory bar. -/
def Obligations.ReceiverRecoversTheFrames : Prop :=
  (∀ fs : List (List Byte), (∀ f ∈ fs, ∃ arith smp, encodeFrame arith smp = some f) →
    readFrames fs.length fs.flatten = fs) ∧
  (∀ (arith : BarArith) (smp : Sample) (f : List Byte), encodeFrame arith smp = some f →
    some (frameBars f).1 = coreBars arith (smp.cores.take 31) ∧ (frameBars f).2 = barOf arith smp.mem)

/-- 42_framing.md R178, an inference of the spec: a receiver that lost its place finds the next frame at the next byte with bit 7
set. -/
def Obligations.ReceiverFindsTheNextFrame : Prop :=
  ∀ (arith : BarArith) (smp : Sample) (f junk rest : List Byte), encodeFrame arith smp = some f →
    (∀ b ∈ junk, b.toNat < 128) → resynchronise (junk ++ f ++ rest) = f ++ rest

/-- 20_memory.md R78, 42_framing.md R173, inferences of the spec: every step keeps the outbound stream what the frames say: the
bytes on the wire since the last REQ_OPEN are a prefix of its frames joined, in order, and the rest of an open link is in TXQ. -/
def Obligations.StepsKeepTheStreamInOrder : Prop :=
  ∀ s t : State, RegisterInvariants s → StreamInvariant s → step s = .next t → StreamInvariant t

/-- 42_framing.md R174 (an inference of the spec), 20_memory.md R81: only an accepted RX appends, and it appends one frame to TXQ
and to OUT; every other event leaves in TXQ a tail of what was there. -/
def Obligations.OnlyCyclesWriteFrames : Prop :=
  ∀ (i : Instr) (s t : State), exec i s = .next t →
    (framesOf t.out = framesOf s.out ∧ t.txq <:+ s.txq) ∨
    (∃ b f, i = .rx b ∧ s.ls = .opened ∧ s.ending = false ∧ encodeFrame s.params.barArith s.draw = some f ∧
      t.txq = s.txq ++ f ∧ framesOf t.out = framesOf s.out ++ [f])

/-- 42_framing.md R175, an inference of the spec from R171 and R195: once ENDING = 1, no step appends to TXQ and no step emits
FRAME, and ENDING stays 1. -/
def Obligations.NoFrameAfterEnding : Prop :=
  ∀ s t : State, s.ending = true → step s = .next t →
    t.ending = true ∧ framesOf t.out = framesOf s.out ∧ t.txq <:+ s.txq

/-- 20_memory.md R80: when the close is requested, every byte written since the link was asked for has been on the wire. -/
def Obligations.CloseFollowsTheFlush : Prop :=
  ∀ s t : State, RegisterInvariants s → StreamInvariant s → exec .drainDone s = .next t → t.out ≠ s.out →
    t.out = s.out ++ [.reqClose] ∧ s.txq = [] ∧
    wiresOf (sinceReqOpen s.out) = (framesOf (sinceReqOpen s.out)).flatten

/-! ## Faults -/

/-- 60_exceptions.md R231, 10_state.md R42: an event that changes FAULT changes nothing else, and no event clears a bit of it. -/
def Obligations.FaultedEventsChangeOnlyFault : Prop :=
  ∀ (i : Instr) (s t : State), exec i s = .next t →
    (t.fault ≠ s.fault → t = { s with fault := t.fault }) ∧ s.fault &&& t.fault = s.fault

/-- 43_link.md R190, R191, 60_exceptions.md R235: outside EXITED, an event on the port that the state does not admit raises
EV_CONTEXT and changes nothing else; one that it admits raises no EV_CONTEXT: it changes FAULT only by IN_RANGE, in an RX. -/
def Obligations.ContextFaultsExactlyOutsideTheTable : Prop :=
  ∀ (i : Instr) (s : State), i.wellFormed = true → s.ls ≠ .exited →
    (admits i s = false → exec i s = .next { s with fault := s.fault ||| 0b010 }) ∧
    (admits i s = true →
      ∃ t, exec i s = .next t ∧
        (t.fault = s.fault ∨ ∃ b, i = .rx b ∧ t = { s with fault := s.fault ||| 0b100 }))

/-- 10_state.md R42: no rule reads FAULT: from two states that differ only in FAULT, every event does the same, and sets the same
bits. -/
def Obligations.FaultRegisterIsNeverRead : Prop :=
  ∀ (i : Instr) (s : State) (f : BitVec 3), ∃ (t : State) (bits : BitVec 3),
    exec i s = .next { t with fault := s.fault ||| bits } ∧
    exec i { s with fault := f } = .next { t with fault := f ||| bits }

/-- 10_state.md R44: OUT only grows, and nothing reads it back: every event appends the same actions whatever OUT holds. -/
def Obligations.OutputLogIsNeverRead : Prop :=
  ∀ (i : Instr) (s : State) (log : List Action), ∃ (t : State) (actions : List Action),
    exec i s = .next { t with out := s.out ++ actions } ∧
    exec i { s with out := log } = .next { t with out := log ++ actions }

/-- 60_exceptions.md R242, its duties as notes/assumptions/19.md reads them: a LINK, a TIMER or a TERMINATE that keeps its duties
never makes the block fault, while the draws keep their contract; and a whole run whose environment keeps its duties, and whose HOST
presents neither START nor DISCONNECT, completes without a fault. -/
def Obligations.DutifulEnvironmentNeverFaults : Prop :=
  (∀ (past : List Stimulus) (i : Instr) (s t : State), RegisterInvariants s → (i.agent ≠ .host ∨ i = .terminate) →
    dutyAllows past i s = true → drawKeepsContract i s.draw s = true → exec i s = .next t → t.fault = s.fault) ∧
  (∀ (past : List Stimulus) (s : State), RegisterInvariants s → keepsDuties past s.schedule s = true →
    (∀ w smp, Stimulus.present w smp ∈ s.schedule → w ≠ 0x1000 ∧ w ≠ 0x9000) →
    ∃ t, Sys2Proof.core.run s.schedule.length s = .next t ∧ t.fault = s.fault)

/-! ## The link-lifecycle state machine as a whole -/

/-- 10_state.md R47, an inference of the spec by induction from reset: every step keeps the ten invariants. -/
def Obligations.StepsKeepTheRegisterInvariants : Prop :=
  ∀ s t : State, RegisterInvariants s → step s = .next t → RegisterInvariants t

/-- 43_link.md R190: from a state the block reaches, LS changes only along the edges of R190's table. -/
def Obligations.LinkStateFollowsTheTable : Prop :=
  ∀ (i : Instr) (s t : State), RegisterInvariants s → exec i s = .next t →
    t.ls = s.ls ∨ (s.ls, t.ls) ∈ linkStateEdges i

/-- 60_exceptions.md R238, 10_state.md R32, R36: termination never returns: with ENDING = 1, no step clears ENDING or changes
CAUSE, and none leads to DISCONNECTED, OPEN or CLOSED. -/
def Obligations.TerminationNeverReturns : Prop :=
  ∀ s t : State, RegisterInvariants s → s.ending = true → step s = .next t →
    t.ending = true ∧ t.cause = s.cause ∧ t.ls ∉ [.disconnected, .opened, .closed] ∧
    (s.ls = .terminating → t.ls ∈ [.terminating, .draining, .exited])

/-- 60_exceptions.md R245, 43_link.md R191: in EXITED every event, and every word presented on the port, changes nothing. -/
def Obligations.ExitedIsFinal : Prop :=
  (∀ (i : Instr) (s : State), s.ls = .exited → exec i s = .next s) ∧
  (∀ (w : EventWord) (s : State), s.ls = .exited → acceptWord w s = .next s)

/-- 43_link.md R202: with RECONNECT_MAX = 0 the block never reconnects: a pending open's failure and an open link's loss end the
run, and START alone emits REQ_OPEN. -/
def Obligations.NoReconnectByDefault : Prop :=
  ∀ (i : Instr) (s t : State), s.params.reconnectMax = 0 → exec i s = .next t →
    (i = .openFail → s.ls = .connecting → t.ls = .terminating) ∧
    (i = .linkLost → s.handle = true → s.ls ≠ .exited → t.ls = .terminating) ∧
    (i ≠ .start → t.out.countP isReqOpen = s.out.countP isReqOpen) ∧
    (s.retry = 0 → t.retry = 0)

/-- 43_link.md R204: LOG(OPEN_FAIL) is emitted by every OPEN_FAIL that is taken, LOG(LINK_LOST) by every LINK_LOST, and no other
log record by anything. -/
def Obligations.LogRecordsExactly : Prop :=
  ∀ (i : Instr) (s t : State), exec i s = .next t →
    logsOf t.out = logsOf s.out ++
      (if i = .openFail ∧ s.ls = .connecting then [.openFail]
       else if i = .linkLost ∧ s.handle = true ∧ s.ls ≠ .exited then [.linkLost]
       else [])

/-- 43_link.md R205, an inference of the spec: a REQ_DRAIN that STEP emits comes after ENDING became 1, and no RX with ENDING = 1
runs a cycle. -/
def Obligations.EndingComesBeforeTheDrain : Prop :=
  (∀ s t : State, RegisterInvariants s → exec .step s = .next t → t.out = s.out ++ [.reqDrain] → s.ending = true) ∧
  (∀ (s : State) (b : Byte), s.ending = true → exec (.rx b) s = .next s)

/-- 43_link.md R206, an inference of the spec: with no link, never opened or lost, no event but an OPEN_OK answering a pending
open leads anywhere else, and none emits REQ_DRAIN or REQ_CLOSE; a fatal OPEN_FAIL or LINK_LOST leads there with LS = TERMINATING.
-/
def Obligations.NoDrainWithoutALink : Prop :=
  (∀ (i : Instr) (s t : State), NoLink s → exec i s = .next t → ¬ (i = .openOk ∧ s.ls = .connecting) →
    NoLink t ∧ closingRequestsOf t.out = closingRequestsOf s.out ∧
    (s.ls ∈ [.terminating, .exited] → t.ls ∈ [.terminating, .exited])) ∧
  (∀ (i : Instr) (s t : State), RegisterInvariants s → exec i s = .next t →
    (i = .openFail ∧ s.ls = .connecting) ∨ (i = .linkLost ∧ s.handle = true) → t.ls ≠ .connecting →
    NoLink t ∧ t.ls = .terminating ∧ closingRequestsOf t.out = closingRequestsOf s.out)

/-- 10_state.md R43, R44: every step keeps OUT's EXIT actions equal to EXIT_CODE: one when the run has ended, none before. -/
def Obligations.ExitIsEmittedOnce : Prop :=
  ∀ s t : State, RegisterInvariants s → ExitLogged s → step s = .next t → ExitLogged t

/-- 70_reset_and_hazards.md R262: the parameters, which State carries (notes/assumptions/7.md), are fixed for the whole run. The
model's own choice (notes/assumptions/1.md and 9.md): an event changes none of its own fields `schedule`, `draw` and `stepIndex`; the
step alone does. -/
def Obligations.ParametersAreFixed : Prop :=
  (∀ s t : State, step s = .next t → t.params = s.params) ∧
  (∀ (i : Instr) (s t : State), exec i s = .next t →
    t.params = s.params ∧ t.schedule = s.schedule ∧ t.draw = s.draw ∧ t.stepIndex = s.stepIndex)

/-! ## Runs -/

/-- 43_link.md R200, R201, R198, R199, 42_framing.md R172: a termination signal in OPEN, answered by a LINK that sends every queued
byte, drains and closes, ends in EXITED with code 0, with every queued byte on the wire in order and no fault. -/
def Obligations.GracefulTerminationExits : Prop :=
  ∀ s : State, RegisterInvariants s → s.ls = .opened →
    s.schedule =
      [.present 0xA000 none, .block] ++ List.replicate s.txq.length (.present 0x5000 none) ++
        [.present 0x7000 none, .present 0x8000 none, .block] →
    ∃ t, Sys2Proof.core.run (s.txq.length + 5) s = .next t ∧
      t.ls = .exited ∧ t.exitCode = some 0 ∧ t.txq = [] ∧ t.handle = false ∧ t.fault = s.fault ∧
      t.out = s.out ++ [.reqDrain] ++ s.txq.map .wire ++ [.reqClose, .exit 0]

/-- 43_link.md R194, R201, R203, 60_exceptions.md R232: an open failure with no reconnect left ends in EXITED with FAIL_EXIT_CODE,
and emits no REQ_DRAIN and no REQ_CLOSE. -/
def Obligations.OpenFailureExitsWithoutDrain : Prop :=
  ∀ s : State, RegisterInvariants s → s.ls = .connecting → s.ending = false →
    s.retry.toNat = s.params.reconnectMax.val → s.schedule = [.present 0x3000 none, .block] →
    ∃ t, Sys2Proof.core.run 2 s = .next t ∧ t.ls = .exited ∧ t.exitCode = some s.params.failExitCode ∧
      t.cause = .openFail ∧ t.fault = s.fault ∧ t.out = s.out ++ [.log .openFail, .exit s.params.failExitCode]

/-- 30_encoding.md R105, R106, 20_memory.md R78: the script step CYCLE, loaded as notes/assumptions/2.md says and run on an open link
with an empty queue, writes one frame and puts exactly its bytes on the wire, in order. -/
def Obligations.CycleScriptSendsItsFrame : Prop :=
  ∀ (s : State) (b : Byte) (smp : Sample) (f : List Byte),
    s.ls = .opened → s.ending = false → s.handle = true → s.txq = [] → encodeFrame s.params.barArith smp = some f →
    ∃ t, Sys2Proof.core.run (expandStep (.cycle b smp)).length (loadScript [.cycle b smp] s) = .next t ∧
      t.txq = [] ∧ t.schedule = [] ∧ t.prevButtons = b ∧ t.ls = .opened ∧ t.fault = s.fault ∧
      t.out = s.out ++ [.frame f] ++ f.map .wire
end

