-- ==== Sys2Proof/Laws/State.lean ====
section
/-! SUPPORT. One lemma per field per update of the state: what each shared update leaves in each field. -/

namespace Sys2Proof.Machine

/-! `Emit`. -/

@[simp] theorem emit_ls (a : Action) (s : State) : (emit a s).ls = s.ls := rfl
@[simp] theorem emit_ending (a : Action) (s : State) : (emit a s).ending = s.ending := rfl
@[simp] theorem emit_handle (a : Action) (s : State) : (emit a s).handle = s.handle := rfl
@[simp] theorem emit_dsub (a : Action) (s : State) : (emit a s).dsub = s.dsub := rfl
@[simp] theorem emit_cont (a : Action) (s : State) : (emit a s).cont = s.cont := rfl
@[simp] theorem emit_cause (a : Action) (s : State) : (emit a s).cause = s.cause := rfl
@[simp] theorem emit_retry (a : Action) (s : State) : (emit a s).retry = s.retry := rfl
@[simp] theorem emit_prevButtons (a : Action) (s : State) : (emit a s).prevButtons = s.prevButtons := rfl
@[simp] theorem emit_monOn (a : Action) (s : State) : (emit a s).monOn = s.monOn := rfl
@[simp] theorem emit_forcedOn (a : Action) (s : State) : (emit a s).forcedOn = s.forcedOn := rfl
@[simp] theorem emit_forcedOff (a : Action) (s : State) : (emit a s).forcedOff = s.forcedOff := rfl
@[simp] theorem emit_fault (a : Action) (s : State) : (emit a s).fault = s.fault := rfl
@[simp] theorem emit_exitCode (a : Action) (s : State) : (emit a s).exitCode = s.exitCode := rfl
@[simp] theorem emit_txq (a : Action) (s : State) : (emit a s).txq = s.txq := rfl
@[simp] theorem emit_out (a : Action) (s : State) : (emit a s).out = s.out ++ [a] := rfl
@[simp] theorem emit_params (a : Action) (s : State) : (emit a s).params = s.params := rfl
@[simp] theorem emit_schedule (a : Action) (s : State) : (emit a s).schedule = s.schedule := rfl
@[simp] theorem emit_draw (a : Action) (s : State) : (emit a s).draw = s.draw := rfl
@[simp] theorem emit_stepIndex (a : Action) (s : State) : (emit a s).stepIndex = s.stepIndex := rfl

/-! `TxAppend`. -/

@[simp] theorem txAppend_ls (f : List Byte) (s : State) : (txAppend f s).ls = s.ls := rfl
@[simp] theorem txAppend_ending (f : List Byte) (s : State) : (txAppend f s).ending = s.ending := rfl
@[simp] theorem txAppend_handle (f : List Byte) (s : State) : (txAppend f s).handle = s.handle := rfl
@[simp] theorem txAppend_dsub (f : List Byte) (s : State) : (txAppend f s).dsub = s.dsub := rfl
@[simp] theorem txAppend_cont (f : List Byte) (s : State) : (txAppend f s).cont = s.cont := rfl
@[simp] theorem txAppend_cause (f : List Byte) (s : State) : (txAppend f s).cause = s.cause := rfl
@[simp] theorem txAppend_retry (f : List Byte) (s : State) : (txAppend f s).retry = s.retry := rfl
@[simp] theorem txAppend_prevButtons (f : List Byte) (s : State) : (txAppend f s).prevButtons = s.prevButtons := rfl
@[simp] theorem txAppend_monOn (f : List Byte) (s : State) : (txAppend f s).monOn = s.monOn := rfl
@[simp] theorem txAppend_forcedOn (f : List Byte) (s : State) : (txAppend f s).forcedOn = s.forcedOn := rfl
@[simp] theorem txAppend_forcedOff (f : List Byte) (s : State) : (txAppend f s).forcedOff = s.forcedOff := rfl
@[simp] theorem txAppend_fault (f : List Byte) (s : State) : (txAppend f s).fault = s.fault := rfl
@[simp] theorem txAppend_exitCode (f : List Byte) (s : State) : (txAppend f s).exitCode = s.exitCode := rfl
@[simp] theorem txAppend_txq (f : List Byte) (s : State) : (txAppend f s).txq = s.txq ++ f := rfl
@[simp] theorem txAppend_out (f : List Byte) (s : State) : (txAppend f s).out = s.out := rfl
@[simp] theorem txAppend_params (f : List Byte) (s : State) : (txAppend f s).params = s.params := rfl
@[simp] theorem txAppend_schedule (f : List Byte) (s : State) : (txAppend f s).schedule = s.schedule := rfl
@[simp] theorem txAppend_draw (f : List Byte) (s : State) : (txAppend f s).draw = s.draw := rfl
@[simp] theorem txAppend_stepIndex (f : List Byte) (s : State) : (txAppend f s).stepIndex = s.stepIndex := rfl

/-! `raise Fault(f)`. -/

@[simp] theorem raiseFault_ls (f : FaultCode) (s : State) : (raiseFault f s).ls = s.ls := rfl
@[simp] theorem raiseFault_ending (f : FaultCode) (s : State) : (raiseFault f s).ending = s.ending := rfl
@[simp] theorem raiseFault_handle (f : FaultCode) (s : State) : (raiseFault f s).handle = s.handle := rfl
@[simp] theorem raiseFault_dsub (f : FaultCode) (s : State) : (raiseFault f s).dsub = s.dsub := rfl
@[simp] theorem raiseFault_cont (f : FaultCode) (s : State) : (raiseFault f s).cont = s.cont := rfl
@[simp] theorem raiseFault_cause (f : FaultCode) (s : State) : (raiseFault f s).cause = s.cause := rfl
@[simp] theorem raiseFault_retry (f : FaultCode) (s : State) : (raiseFault f s).retry = s.retry := rfl
@[simp] theorem raiseFault_prevButtons (f : FaultCode) (s : State) : (raiseFault f s).prevButtons = s.prevButtons := rfl
@[simp] theorem raiseFault_monOn (f : FaultCode) (s : State) : (raiseFault f s).monOn = s.monOn := rfl
@[simp] theorem raiseFault_forcedOn (f : FaultCode) (s : State) : (raiseFault f s).forcedOn = s.forcedOn := rfl
@[simp] theorem raiseFault_forcedOff (f : FaultCode) (s : State) : (raiseFault f s).forcedOff = s.forcedOff := rfl
@[simp] theorem raiseFault_fault (f : FaultCode) (s : State) : (raiseFault f s).fault = s.fault ||| faultWeight f := rfl
@[simp] theorem raiseFault_exitCode (f : FaultCode) (s : State) : (raiseFault f s).exitCode = s.exitCode := rfl
@[simp] theorem raiseFault_txq (f : FaultCode) (s : State) : (raiseFault f s).txq = s.txq := rfl
@[simp] theorem raiseFault_out (f : FaultCode) (s : State) : (raiseFault f s).out = s.out := rfl
@[simp] theorem raiseFault_params (f : FaultCode) (s : State) : (raiseFault f s).params = s.params := rfl
@[simp] theorem raiseFault_schedule (f : FaultCode) (s : State) : (raiseFault f s).schedule = s.schedule := rfl
@[simp] theorem raiseFault_draw (f : FaultCode) (s : State) : (raiseFault f s).draw = s.draw := rfl
@[simp] theorem raiseFault_stepIndex (f : FaultCode) (s : State) : (raiseFault f s).stepIndex = s.stepIndex := rfl

/-! REQ_OPEN. -/

@[simp] theorem requestOpen_ls (s : State) : (requestOpen s).ls = s.ls := rfl
@[simp] theorem requestOpen_ending (s : State) : (requestOpen s).ending = s.ending := rfl
@[simp] theorem requestOpen_handle (s : State) : (requestOpen s).handle = s.handle := rfl
@[simp] theorem requestOpen_dsub (s : State) : (requestOpen s).dsub = s.dsub := rfl
@[simp] theorem requestOpen_cont (s : State) : (requestOpen s).cont = s.cont := rfl
@[simp] theorem requestOpen_cause (s : State) : (requestOpen s).cause = s.cause := rfl
@[simp] theorem requestOpen_retry (s : State) : (requestOpen s).retry = s.retry := rfl
@[simp] theorem requestOpen_prevButtons (s : State) : (requestOpen s).prevButtons = s.prevButtons := rfl
@[simp] theorem requestOpen_monOn (s : State) : (requestOpen s).monOn = s.monOn := rfl
@[simp] theorem requestOpen_forcedOn (s : State) : (requestOpen s).forcedOn = s.forcedOn := rfl
@[simp] theorem requestOpen_forcedOff (s : State) : (requestOpen s).forcedOff = s.forcedOff := rfl
@[simp] theorem requestOpen_fault (s : State) : (requestOpen s).fault = s.fault := rfl
@[simp] theorem requestOpen_exitCode (s : State) : (requestOpen s).exitCode = s.exitCode := rfl
@[simp] theorem requestOpen_txq (s : State) : (requestOpen s).txq = s.txq := rfl
@[simp] theorem requestOpen_out (s : State) : (requestOpen s).out = s.out ++ [.reqOpen s.params.portPath s.params.baud] := rfl
@[simp] theorem requestOpen_params (s : State) : (requestOpen s).params = s.params := rfl
@[simp] theorem requestOpen_schedule (s : State) : (requestOpen s).schedule = s.schedule := rfl
@[simp] theorem requestOpen_draw (s : State) : (requestOpen s).draw = s.draw := rfl
@[simp] theorem requestOpen_stepIndex (s : State) : (requestOpen s).stepIndex = s.stepIndex := rfl

/-! A reconnect attempt. -/

@[simp] theorem retryOpen_ls (s : State) : (retryOpen s).ls = .connecting := rfl
@[simp] theorem retryOpen_ending (s : State) : (retryOpen s).ending = s.ending := rfl
@[simp] theorem retryOpen_handle (s : State) : (retryOpen s).handle = s.handle := rfl
@[simp] theorem retryOpen_dsub (s : State) : (retryOpen s).dsub = s.dsub := rfl
@[simp] theorem retryOpen_cont (s : State) : (retryOpen s).cont = s.cont := rfl
@[simp] theorem retryOpen_cause (s : State) : (retryOpen s).cause = s.cause := rfl
@[simp] theorem retryOpen_retry (s : State) : (retryOpen s).retry = s.retry + 1 := rfl
@[simp] theorem retryOpen_prevButtons (s : State) : (retryOpen s).prevButtons = s.prevButtons := rfl
@[simp] theorem retryOpen_monOn (s : State) : (retryOpen s).monOn = s.monOn := rfl
@[simp] theorem retryOpen_forcedOn (s : State) : (retryOpen s).forcedOn = s.forcedOn := rfl
@[simp] theorem retryOpen_forcedOff (s : State) : (retryOpen s).forcedOff = s.forcedOff := rfl
@[simp] theorem retryOpen_fault (s : State) : (retryOpen s).fault = s.fault := rfl
@[simp] theorem retryOpen_exitCode (s : State) : (retryOpen s).exitCode = s.exitCode := rfl
@[simp] theorem retryOpen_txq (s : State) : (retryOpen s).txq = s.txq := rfl
@[simp] theorem retryOpen_out (s : State) : (retryOpen s).out = s.out ++ [.reqOpen s.params.portPath s.params.baud] := rfl
@[simp] theorem retryOpen_params (s : State) : (retryOpen s).params = s.params := rfl
@[simp] theorem retryOpen_schedule (s : State) : (retryOpen s).schedule = s.schedule := rfl
@[simp] theorem retryOpen_draw (s : State) : (retryOpen s).draw = s.draw := rfl
@[simp] theorem retryOpen_stepIndex (s : State) : (retryOpen s).stepIndex = s.stepIndex := rfl

/-! The termination cause. -/

@[simp] theorem recordCause_ls (c : Cause) (s : State) : (recordCause c s).ls = s.ls := rfl
@[simp] theorem recordCause_ending (c : Cause) (s : State) : (recordCause c s).ending = true := rfl
@[simp] theorem recordCause_handle (c : Cause) (s : State) : (recordCause c s).handle = s.handle := rfl
@[simp] theorem recordCause_dsub (c : Cause) (s : State) : (recordCause c s).dsub = s.dsub := rfl
@[simp] theorem recordCause_cont (c : Cause) (s : State) : (recordCause c s).cont = s.cont := rfl
@[simp] theorem recordCause_cause (c : Cause) (s : State) : (recordCause c s).cause = if s.ending then s.cause else c := rfl
@[simp] theorem recordCause_retry (c : Cause) (s : State) : (recordCause c s).retry = s.retry := rfl
@[simp] theorem recordCause_prevButtons (c : Cause) (s : State) : (recordCause c s).prevButtons = s.prevButtons := rfl
@[simp] theorem recordCause_monOn (c : Cause) (s : State) : (recordCause c s).monOn = s.monOn := rfl
@[simp] theorem recordCause_forcedOn (c : Cause) (s : State) : (recordCause c s).forcedOn = s.forcedOn := rfl
@[simp] theorem recordCause_forcedOff (c : Cause) (s : State) : (recordCause c s).forcedOff = s.forcedOff := rfl
@[simp] theorem recordCause_fault (c : Cause) (s : State) : (recordCause c s).fault = s.fault := rfl
@[simp] theorem recordCause_exitCode (c : Cause) (s : State) : (recordCause c s).exitCode = s.exitCode := rfl
@[simp] theorem recordCause_txq (c : Cause) (s : State) : (recordCause c s).txq = s.txq := rfl
@[simp] theorem recordCause_out (c : Cause) (s : State) : (recordCause c s).out = s.out := rfl
@[simp] theorem recordCause_params (c : Cause) (s : State) : (recordCause c s).params = s.params := rfl
@[simp] theorem recordCause_schedule (c : Cause) (s : State) : (recordCause c s).schedule = s.schedule := rfl
@[simp] theorem recordCause_draw (c : Cause) (s : State) : (recordCause c s).draw = s.draw := rfl
@[simp] theorem recordCause_stepIndex (c : Cause) (s : State) : (recordCause c s).stepIndex = s.stepIndex := rfl

/-! Entering termination. -/

@[simp] theorem enterTermination_ls (c : Cause) (s : State) : (enterTermination c s).ls = .terminating := rfl
@[simp] theorem enterTermination_ending (c : Cause) (s : State) : (enterTermination c s).ending = true := rfl
@[simp] theorem enterTermination_handle (c : Cause) (s : State) : (enterTermination c s).handle = s.handle := rfl
@[simp] theorem enterTermination_dsub (c : Cause) (s : State) : (enterTermination c s).dsub = s.dsub := rfl
@[simp] theorem enterTermination_cont (c : Cause) (s : State) : (enterTermination c s).cont = s.cont := rfl
@[simp] theorem enterTermination_cause (c : Cause) (s : State) : (enterTermination c s).cause = if s.ending then s.cause else c := rfl
@[simp] theorem enterTermination_retry (c : Cause) (s : State) : (enterTermination c s).retry = s.retry := rfl
@[simp] theorem enterTermination_prevButtons (c : Cause) (s : State) : (enterTermination c s).prevButtons = s.prevButtons := rfl
@[simp] theorem enterTermination_monOn (c : Cause) (s : State) : (enterTermination c s).monOn = s.monOn := rfl
@[simp] theorem enterTermination_forcedOn (c : Cause) (s : State) : (enterTermination c s).forcedOn = s.forcedOn := rfl
@[simp] theorem enterTermination_forcedOff (c : Cause) (s : State) : (enterTermination c s).forcedOff = s.forcedOff := rfl
@[simp] theorem enterTermination_fault (c : Cause) (s : State) : (enterTermination c s).fault = s.fault := rfl
@[simp] theorem enterTermination_exitCode (c : Cause) (s : State) : (enterTermination c s).exitCode = s.exitCode := rfl
@[simp] theorem enterTermination_txq (c : Cause) (s : State) : (enterTermination c s).txq = s.txq := rfl
@[simp] theorem enterTermination_out (c : Cause) (s : State) : (enterTermination c s).out = s.out := rfl
@[simp] theorem enterTermination_params (c : Cause) (s : State) : (enterTermination c s).params = s.params := rfl
@[simp] theorem enterTermination_schedule (c : Cause) (s : State) : (enterTermination c s).schedule = s.schedule := rfl
@[simp] theorem enterTermination_draw (c : Cause) (s : State) : (enterTermination c s).draw = s.draw := rfl
@[simp] theorem enterTermination_stepIndex (c : Cause) (s : State) : (enterTermination c s).stepIndex = s.stepIndex := rfl

/-! Starting a graceful close. -/

@[simp] theorem beginDrain_ls (k : Continuation) (s : State) : (beginDrain k s).ls = .draining := rfl
@[simp] theorem beginDrain_ending (k : Continuation) (s : State) : (beginDrain k s).ending = s.ending := rfl
@[simp] theorem beginDrain_handle (k : Continuation) (s : State) : (beginDrain k s).handle = s.handle := rfl
@[simp] theorem beginDrain_dsub (k : Continuation) (s : State) : (beginDrain k s).dsub = false := rfl
@[simp] theorem beginDrain_cont (k : Continuation) (s : State) : (beginDrain k s).cont = k := rfl
@[simp] theorem beginDrain_cause (k : Continuation) (s : State) : (beginDrain k s).cause = s.cause := rfl
@[simp] theorem beginDrain_retry (k : Continuation) (s : State) : (beginDrain k s).retry = s.retry := rfl
@[simp] theorem beginDrain_prevButtons (k : Continuation) (s : State) : (beginDrain k s).prevButtons = s.prevButtons := rfl
@[simp] theorem beginDrain_monOn (k : Continuation) (s : State) : (beginDrain k s).monOn = s.monOn := rfl
@[simp] theorem beginDrain_forcedOn (k : Continuation) (s : State) : (beginDrain k s).forcedOn = s.forcedOn := rfl
@[simp] theorem beginDrain_forcedOff (k : Continuation) (s : State) : (beginDrain k s).forcedOff = s.forcedOff := rfl
@[simp] theorem beginDrain_fault (k : Continuation) (s : State) : (beginDrain k s).fault = s.fault := rfl
@[simp] theorem beginDrain_exitCode (k : Continuation) (s : State) : (beginDrain k s).exitCode = s.exitCode := rfl
@[simp] theorem beginDrain_txq (k : Continuation) (s : State) : (beginDrain k s).txq = s.txq := rfl
@[simp] theorem beginDrain_out (k : Continuation) (s : State) : (beginDrain k s).out = s.out ++ [.reqDrain] := rfl
@[simp] theorem beginDrain_params (k : Continuation) (s : State) : (beginDrain k s).params = s.params := rfl
@[simp] theorem beginDrain_schedule (k : Continuation) (s : State) : (beginDrain k s).schedule = s.schedule := rfl
@[simp] theorem beginDrain_draw (k : Continuation) (s : State) : (beginDrain k s).draw = s.draw := rfl
@[simp] theorem beginDrain_stepIndex (k : Continuation) (s : State) : (beginDrain k s).stepIndex = s.stepIndex := rfl

/-! Exiting the process. -/

@[simp] theorem exitProcess_ls (s : State) : (exitProcess s).ls = .exited := rfl
@[simp] theorem exitProcess_ending (s : State) : (exitProcess s).ending = s.ending := rfl
@[simp] theorem exitProcess_handle (s : State) : (exitProcess s).handle = s.handle := rfl
@[simp] theorem exitProcess_dsub (s : State) : (exitProcess s).dsub = s.dsub := rfl
@[simp] theorem exitProcess_cont (s : State) : (exitProcess s).cont = s.cont := rfl
@[simp] theorem exitProcess_cause (s : State) : (exitProcess s).cause = s.cause := rfl
@[simp] theorem exitProcess_retry (s : State) : (exitProcess s).retry = s.retry := rfl
@[simp] theorem exitProcess_prevButtons (s : State) : (exitProcess s).prevButtons = s.prevButtons := rfl
@[simp] theorem exitProcess_monOn (s : State) : (exitProcess s).monOn = s.monOn := rfl
@[simp] theorem exitProcess_forcedOn (s : State) : (exitProcess s).forcedOn = s.forcedOn := rfl
@[simp] theorem exitProcess_forcedOff (s : State) : (exitProcess s).forcedOff = s.forcedOff := rfl
@[simp] theorem exitProcess_fault (s : State) : (exitProcess s).fault = s.fault := rfl
@[simp] theorem exitProcess_exitCode (s : State) : (exitProcess s).exitCode = some (exitCodeOf s.params.failExitCode s.cause) := rfl
@[simp] theorem exitProcess_txq (s : State) : (exitProcess s).txq = s.txq := rfl
@[simp] theorem exitProcess_out (s : State) : (exitProcess s).out = s.out ++ [.exit (exitCodeOf s.params.failExitCode s.cause)] := rfl
@[simp] theorem exitProcess_params (s : State) : (exitProcess s).params = s.params := rfl
@[simp] theorem exitProcess_schedule (s : State) : (exitProcess s).schedule = s.schedule := rfl
@[simp] theorem exitProcess_draw (s : State) : (exitProcess s).draw = s.draw := rfl
@[simp] theorem exitProcess_stepIndex (s : State) : (exitProcess s).stepIndex = s.stepIndex := rfl

/-! Dropping a lost link. -/

@[simp] theorem dropLink_ls (s : State) : (dropLink s).ls = s.ls := rfl
@[simp] theorem dropLink_ending (s : State) : (dropLink s).ending = s.ending := rfl
@[simp] theorem dropLink_handle (s : State) : (dropLink s).handle = false := rfl
@[simp] theorem dropLink_dsub (s : State) : (dropLink s).dsub = false := rfl
@[simp] theorem dropLink_cont (s : State) : (dropLink s).cont = s.cont := rfl
@[simp] theorem dropLink_cause (s : State) : (dropLink s).cause = s.cause := rfl
@[simp] theorem dropLink_retry (s : State) : (dropLink s).retry = s.retry := rfl
@[simp] theorem dropLink_prevButtons (s : State) : (dropLink s).prevButtons = s.prevButtons := rfl
@[simp] theorem dropLink_monOn (s : State) : (dropLink s).monOn = s.monOn := rfl
@[simp] theorem dropLink_forcedOn (s : State) : (dropLink s).forcedOn = s.forcedOn := rfl
@[simp] theorem dropLink_forcedOff (s : State) : (dropLink s).forcedOff = s.forcedOff := rfl
@[simp] theorem dropLink_fault (s : State) : (dropLink s).fault = s.fault := rfl
@[simp] theorem dropLink_exitCode (s : State) : (dropLink s).exitCode = s.exitCode := rfl
@[simp] theorem dropLink_txq (s : State) : (dropLink s).txq = [] := rfl
@[simp] theorem dropLink_out (s : State) : (dropLink s).out = s.out ++ [.log .linkLost] := rfl
@[simp] theorem dropLink_params (s : State) : (dropLink s).params = s.params := rfl
@[simp] theorem dropLink_schedule (s : State) : (dropLink s).schedule = s.schedule := rfl
@[simp] theorem dropLink_draw (s : State) : (dropLink s).draw = s.draw := rfl
@[simp] theorem dropLink_stepIndex (s : State) : (dropLink s).stepIndex = s.stepIndex := rfl

/-! DECODE. -/

@[simp] theorem decodeButtons_ls (b : Byte) (s : State) : (decodeButtons b s).ls = s.ls := rfl
@[simp] theorem decodeButtons_ending (b : Byte) (s : State) : (decodeButtons b s).ending = s.ending := rfl
@[simp] theorem decodeButtons_handle (b : Byte) (s : State) : (decodeButtons b s).handle = s.handle := rfl
@[simp] theorem decodeButtons_dsub (b : Byte) (s : State) : (decodeButtons b s).dsub = s.dsub := rfl
@[simp] theorem decodeButtons_cont (b : Byte) (s : State) : (decodeButtons b s).cont = s.cont := rfl
@[simp] theorem decodeButtons_cause (b : Byte) (s : State) : (decodeButtons b s).cause = s.cause := rfl
@[simp] theorem decodeButtons_retry (b : Byte) (s : State) : (decodeButtons b s).retry = s.retry := rfl
@[simp] theorem decodeButtons_prevButtons (b : Byte) (s : State) : (decodeButtons b s).prevButtons = b := rfl
@[simp] theorem decodeButtons_monOn (b : Byte) (s : State) : (decodeButtons b s).monOn = monitorAfter s.prevButtons b s.monOn := rfl
@[simp] theorem decodeButtons_forcedOn (b : Byte) (s : State) : (decodeButtons b s).forcedOn = s.forcedOn := rfl
@[simp] theorem decodeButtons_forcedOff (b : Byte) (s : State) : (decodeButtons b s).forcedOff = s.forcedOff := rfl
@[simp] theorem decodeButtons_fault (b : Byte) (s : State) : (decodeButtons b s).fault = s.fault := rfl
@[simp] theorem decodeButtons_exitCode (b : Byte) (s : State) : (decodeButtons b s).exitCode = s.exitCode := rfl
@[simp] theorem decodeButtons_txq (b : Byte) (s : State) : (decodeButtons b s).txq = s.txq := rfl
@[simp] theorem decodeButtons_out (b : Byte) (s : State) : (decodeButtons b s).out = s.out := rfl
@[simp] theorem decodeButtons_params (b : Byte) (s : State) : (decodeButtons b s).params = s.params := rfl
@[simp] theorem decodeButtons_schedule (b : Byte) (s : State) : (decodeButtons b s).schedule = s.schedule := rfl
@[simp] theorem decodeButtons_draw (b : Byte) (s : State) : (decodeButtons b s).draw = s.draw := rfl
@[simp] theorem decodeButtons_stepIndex (b : Byte) (s : State) : (decodeButtons b s).stepIndex = s.stepIndex := rfl

/-! The rest of an accepted cycle. -/

@[simp] theorem finishCycle_ls (b : Byte) (f : List Byte) (s : State) : (finishCycle b f s).ls = s.ls := rfl
@[simp] theorem finishCycle_ending (b : Byte) (f : List Byte) (s : State) : (finishCycle b f s).ending = s.ending := rfl
@[simp] theorem finishCycle_handle (b : Byte) (f : List Byte) (s : State) : (finishCycle b f s).handle = s.handle := rfl
@[simp] theorem finishCycle_dsub (b : Byte) (f : List Byte) (s : State) : (finishCycle b f s).dsub = s.dsub := rfl
@[simp] theorem finishCycle_cont (b : Byte) (f : List Byte) (s : State) : (finishCycle b f s).cont = s.cont := rfl
@[simp] theorem finishCycle_cause (b : Byte) (f : List Byte) (s : State) : (finishCycle b f s).cause = s.cause := rfl
@[simp] theorem finishCycle_retry (b : Byte) (f : List Byte) (s : State) : (finishCycle b f s).retry = s.retry := rfl
@[simp] theorem finishCycle_prevButtons (b : Byte) (f : List Byte) (s : State) : (finishCycle b f s).prevButtons = b := rfl
@[simp] theorem finishCycle_monOn (b : Byte) (f : List Byte) (s : State) : (finishCycle b f s).monOn = monitorAfter s.prevButtons b s.monOn := rfl
@[simp] theorem finishCycle_forcedOn (b : Byte) (f : List Byte) (s : State) : (finishCycle b f s).forcedOn = s.forcedOn := rfl
@[simp] theorem finishCycle_forcedOff (b : Byte) (f : List Byte) (s : State) : (finishCycle b f s).forcedOff = s.forcedOff := rfl
@[simp] theorem finishCycle_fault (b : Byte) (f : List Byte) (s : State) : (finishCycle b f s).fault = s.fault := rfl
@[simp] theorem finishCycle_exitCode (b : Byte) (f : List Byte) (s : State) : (finishCycle b f s).exitCode = s.exitCode := rfl
@[simp] theorem finishCycle_txq (b : Byte) (f : List Byte) (s : State) : (finishCycle b f s).txq = s.txq ++ f := rfl
@[simp] theorem finishCycle_out (b : Byte) (f : List Byte) (s : State) : (finishCycle b f s).out = s.out ++ [.frame f] := rfl
@[simp] theorem finishCycle_params (b : Byte) (f : List Byte) (s : State) : (finishCycle b f s).params = s.params := rfl
@[simp] theorem finishCycle_schedule (b : Byte) (f : List Byte) (s : State) : (finishCycle b f s).schedule = s.schedule := rfl
@[simp] theorem finishCycle_draw (b : Byte) (f : List Byte) (s : State) : (finishCycle b f s).draw = s.draw := rfl
@[simp] theorem finishCycle_stepIndex (b : Byte) (f : List Byte) (s : State) : (finishCycle b f s).stepIndex = s.stepIndex := rfl

/-! Taking a stimulus. -/

@[simp] theorem takeStimulus_ls (stim : Stimulus) (rest : List Stimulus) (s : State) : (takeStimulus stim rest s).ls = s.ls := rfl
@[simp] theorem takeStimulus_ending (stim : Stimulus) (rest : List Stimulus) (s : State) : (takeStimulus stim rest s).ending = s.ending := rfl
@[simp] theorem takeStimulus_handle (stim : Stimulus) (rest : List Stimulus) (s : State) : (takeStimulus stim rest s).handle = s.handle := rfl
@[simp] theorem takeStimulus_dsub (stim : Stimulus) (rest : List Stimulus) (s : State) : (takeStimulus stim rest s).dsub = s.dsub := rfl
@[simp] theorem takeStimulus_cont (stim : Stimulus) (rest : List Stimulus) (s : State) : (takeStimulus stim rest s).cont = s.cont := rfl
@[simp] theorem takeStimulus_cause (stim : Stimulus) (rest : List Stimulus) (s : State) : (takeStimulus stim rest s).cause = s.cause := rfl
@[simp] theorem takeStimulus_retry (stim : Stimulus) (rest : List Stimulus) (s : State) : (takeStimulus stim rest s).retry = s.retry := rfl
@[simp] theorem takeStimulus_prevButtons (stim : Stimulus) (rest : List Stimulus) (s : State) : (takeStimulus stim rest s).prevButtons = s.prevButtons := rfl
@[simp] theorem takeStimulus_monOn (stim : Stimulus) (rest : List Stimulus) (s : State) : (takeStimulus stim rest s).monOn = s.monOn := rfl
@[simp] theorem takeStimulus_forcedOn (stim : Stimulus) (rest : List Stimulus) (s : State) : (takeStimulus stim rest s).forcedOn = s.forcedOn := rfl
@[simp] theorem takeStimulus_forcedOff (stim : Stimulus) (rest : List Stimulus) (s : State) : (takeStimulus stim rest s).forcedOff = s.forcedOff := rfl
@[simp] theorem takeStimulus_fault (stim : Stimulus) (rest : List Stimulus) (s : State) : (takeStimulus stim rest s).fault = s.fault := rfl
@[simp] theorem takeStimulus_exitCode (stim : Stimulus) (rest : List Stimulus) (s : State) : (takeStimulus stim rest s).exitCode = s.exitCode := rfl
@[simp] theorem takeStimulus_txq (stim : Stimulus) (rest : List Stimulus) (s : State) : (takeStimulus stim rest s).txq = s.txq := rfl
@[simp] theorem takeStimulus_out (stim : Stimulus) (rest : List Stimulus) (s : State) : (takeStimulus stim rest s).out = s.out := rfl
@[simp] theorem takeStimulus_params (stim : Stimulus) (rest : List Stimulus) (s : State) : (takeStimulus stim rest s).params = s.params := rfl
@[simp] theorem takeStimulus_schedule (stim : Stimulus) (rest : List Stimulus) (s : State) : (takeStimulus stim rest s).schedule = rest := rfl
@[simp] theorem takeStimulus_draw (stim : Stimulus) (rest : List Stimulus) (s : State) : (takeStimulus stim rest s).draw = drawOf s.stepIndex stim := rfl
@[simp] theorem takeStimulus_stepIndex (stim : Stimulus) (rest : List Stimulus) (s : State) : (takeStimulus stim rest s).stepIndex = s.stepIndex + 1 := rfl

/-! Loading a script. -/

@[simp] theorem loadScript_ls (script : List ScriptStep) (s : State) : (loadScript script s).ls = s.ls := rfl
@[simp] theorem loadScript_ending (script : List ScriptStep) (s : State) : (loadScript script s).ending = s.ending := rfl
@[simp] theorem loadScript_handle (script : List ScriptStep) (s : State) : (loadScript script s).handle = s.handle := rfl
@[simp] theorem loadScript_dsub (script : List ScriptStep) (s : State) : (loadScript script s).dsub = s.dsub := rfl
@[simp] theorem loadScript_cont (script : List ScriptStep) (s : State) : (loadScript script s).cont = s.cont := rfl
@[simp] theorem loadScript_cause (script : List ScriptStep) (s : State) : (loadScript script s).cause = s.cause := rfl
@[simp] theorem loadScript_retry (script : List ScriptStep) (s : State) : (loadScript script s).retry = s.retry := rfl
@[simp] theorem loadScript_prevButtons (script : List ScriptStep) (s : State) : (loadScript script s).prevButtons = s.prevButtons := rfl
@[simp] theorem loadScript_monOn (script : List ScriptStep) (s : State) : (loadScript script s).monOn = s.monOn := rfl
@[simp] theorem loadScript_forcedOn (script : List ScriptStep) (s : State) : (loadScript script s).forcedOn = s.forcedOn := rfl
@[simp] theorem loadScript_forcedOff (script : List ScriptStep) (s : State) : (loadScript script s).forcedOff = s.forcedOff := rfl
@[simp] theorem loadScript_fault (script : List ScriptStep) (s : State) : (loadScript script s).fault = s.fault := rfl
@[simp] theorem loadScript_exitCode (script : List ScriptStep) (s : State) : (loadScript script s).exitCode = s.exitCode := rfl
@[simp] theorem loadScript_txq (script : List ScriptStep) (s : State) : (loadScript script s).txq = s.txq := rfl
@[simp] theorem loadScript_out (script : List ScriptStep) (s : State) : (loadScript script s).out = s.out := rfl
@[simp] theorem loadScript_params (script : List ScriptStep) (s : State) : (loadScript script s).params = s.params := rfl
@[simp] theorem loadScript_schedule (script : List ScriptStep) (s : State) : (loadScript script s).schedule = expandScript script := rfl
@[simp] theorem loadScript_draw (script : List ScriptStep) (s : State) : (loadScript script s).draw = s.draw := rfl
@[simp] theorem loadScript_stepIndex (script : List ScriptStep) (s : State) : (loadScript script s).stepIndex = s.stepIndex := rfl

end Sys2Proof.Machine
end

