-- ==== Sys2Proof/Laws/Events.lean ====
section
/-! SUPPORT. What each event can do, once: `exec` as the event's rule, and the cases of each rule over the shared updates, guards
included. Later proofs cite these and unfold no rule. -/

namespace Sys2Proof.Machine

/-! `exec`, event by event: the rule of the event, but nothing in EXITED (43_link.md R191). -/

theorem exec_start (s : State) : exec .start s = .next (if s.ls = .exited then s else startRule s) := rfl
theorem exec_openOk (s : State) : exec .openOk s = .next (if s.ls = .exited then s else openOkRule s) := rfl
theorem exec_openFail (s : State) : exec .openFail s = .next (if s.ls = .exited then s else openFailRule s) := rfl
theorem exec_rx (b : Byte) (s : State) : exec (.rx b) s = .next (if s.ls = .exited then s else rxRule b s) := rfl
theorem exec_txTake (s : State) : exec .txTake s = .next (if s.ls = .exited then s else txTakeRule s) := rfl
theorem exec_linkLost (s : State) : exec .linkLost s = .next (if s.ls = .exited then s else linkLostRule s) := rfl
theorem exec_drainDone (s : State) : exec .drainDone s = .next (if s.ls = .exited then s else drainDoneRule s) := rfl
theorem exec_closeDone (s : State) : exec .closeDone s = .next (if s.ls = .exited then s else closeDoneRule s) := rfl
theorem exec_disconnect (s : State) : exec .disconnect s = .next (if s.ls = .exited then s else disconnectRule s) := rfl
theorem exec_terminate (s : State) : exec .terminate s = .next (if s.ls = .exited then s else terminateRule s) := rfl
theorem exec_tick (s : State) : exec .tick s = .next (if s.ls = .exited then s else tickRule s) := rfl

theorem exec_step (s : State) :
    exec .step s = .next (if s.ls = .terminating then (if s.handle then beginDrain .exit s else exitProcess s) else s) := rfl

/-- Every event answers a next state: no rule of the spec stops the machine. -/
theorem exec_completes (i : Instr) (s : State) : ∃ t, exec i s = .next t := by
  cases i <;> exact ⟨_, rfl⟩

/-! The cases of each rule. -/

theorem startRule_cases (s : State) :
    (s.ls = .disconnected ∧ startRule s = requestOpen { s with ls := .connecting }) ∨
    (s.ls ≠ .disconnected ∧ startRule s = raiseFault .evContext s) := by
  unfold startRule
  split
  · exact .inl ⟨‹_›, rfl⟩
  · exact .inr ⟨‹_›, rfl⟩

theorem openOkRule_cases (s : State) :
    (s.ls = .connecting ∧ s.ending = true ∧
      openOkRule s = { s with handle := true, retry := 0, ls := .terminating }) ∨
    (s.ls = .connecting ∧ s.ending = false ∧
      openOkRule s = { s with handle := true, retry := 0, ls := .opened }) ∨
    (s.ls ≠ .connecting ∧ openOkRule s = raiseFault .evContext s) := by
  unfold openOkRule
  split
  · cases he : s.ending
    · exact .inr (.inl ⟨‹_›, rfl, by simp⟩)
    · exact .inl ⟨‹_›, rfl, by simp⟩
  · exact .inr (.inr ⟨‹_›, rfl⟩)

theorem openFailRule_cases (s : State) :
    (s.ls = .connecting ∧ s.ending = false ∧ s.retry.toNat < s.params.reconnectMax.val ∧
      openFailRule s = retryOpen (emit (.log .openFail) s)) ∨
    (s.ls = .connecting ∧ (s.ending = true ∨ ¬ s.retry.toNat < s.params.reconnectMax.val) ∧
      openFailRule s = enterTermination .openFail (emit (.log .openFail) s)) ∨
    (s.ls ≠ .connecting ∧ openFailRule s = raiseFault .evContext s) := by
  unfold openFailRule retryLeft
  split
  · split
    · rename_i h
      exact .inl ⟨‹_›, h.1, of_decide_eq_true h.2, rfl⟩
    · rename_i h
      refine .inr (.inl ⟨‹_›, ?_, rfl⟩)
      cases he : s.ending
      · exact .inr fun hr => h ⟨he, decide_eq_true hr⟩
      · exact .inl rfl
  · exact .inr (.inr ⟨‹_›, rfl⟩)

theorem rxRule_cases (b : Byte) (s : State) :
    (s.ls = .opened ∧ s.ending = false ∧ ∃ f, encodeFrame s.params.barArith s.draw = some f ∧
      rxRule b s = finishCycle b f s) ∨
    (s.ls = .opened ∧ s.ending = false ∧ encodeFrame s.params.barArith s.draw = none ∧
      rxRule b s = raiseFault .inRange s) ∨
    (¬ (s.ls = .opened ∧ s.ending = false) ∧ rxRule b s = s) := by
  unfold rxRule sampleDraw
  split
  · rename_i h
    cases hf : encodeFrame s.params.barArith s.draw with
    | none => exact .inr (.inl ⟨h.1, h.2, rfl, rfl⟩)
    | some f => exact .inl ⟨h.1, h.2, f, rfl, rfl⟩
  · exact .inr (.inr ⟨‹_›, rfl⟩)

theorem txTakeRule_cases (s : State) :
    (s.handle = true ∧ ∃ b rest, s.txq = b :: rest ∧ txTakeRule s = emit (.wire b) { s with txq := rest }) ∨
    ((s.handle = false ∨ s.txq = []) ∧ txTakeRule s = raiseFault .evContext s) := by
  unfold txTakeRule
  cases hq : s.txq with
  | nil => exact .inr ⟨.inr rfl, rfl⟩
  | cons b rest =>
    cases hh : s.handle
    · exact .inr ⟨.inl rfl, rfl⟩
    · exact .inl ⟨rfl, b, rest, rfl, rfl⟩

theorem linkLostRule_cases (s : State) :
    (s.handle = true ∧ s.ls = .opened ∧ s.ending = false ∧ s.retry.toNat < s.params.reconnectMax.val ∧
      linkLostRule s = retryOpen (dropLink s)) ∨
    (s.handle = true ∧ (s.ls ≠ .opened ∨ s.ending = true ∨ ¬ s.retry.toNat < s.params.reconnectMax.val) ∧
      linkLostRule s = enterTermination .linkLost (dropLink s)) ∨
    (s.handle = false ∧ linkLostRule s = raiseFault .evContext s) := by
  unfold linkLostRule retryLeft
  cases hh : s.handle
  · exact .inr (.inr ⟨rfl, rfl⟩)
  · rw [if_pos rfl]
    split
    · rename_i h
      exact .inl ⟨rfl, h.1, h.2.1, of_decide_eq_true h.2.2, rfl⟩
    · rename_i h
      refine .inr (.inl ⟨rfl, ?_, rfl⟩)
      by_cases hl : s.ls = .opened
      · cases he : s.ending
        · exact .inr (.inr fun hr => h ⟨hl, he, decide_eq_true hr⟩)
        · exact .inr (.inl rfl)
      · exact .inl hl

theorem disconnectRule_cases (s : State) :
    (s.ls = .opened ∧ s.ending = false ∧ disconnectRule s = beginDrain .none s) ∨
    (¬ (s.ls = .opened ∧ s.ending = false) ∧ disconnectRule s = raiseFault .evContext s) := by
  unfold disconnectRule
  split
  · rename_i h
    exact .inl ⟨h.1, h.2, rfl⟩
  · exact .inr ⟨‹_›, rfl⟩

theorem drainDoneRule_cases (s : State) :
    (s.ls = .draining ∧ s.dsub = false ∧ s.txq = [] ∧ drainDoneRule s = emit .reqClose { s with dsub := true }) ∨
    (¬ (s.ls = .draining ∧ s.dsub = false ∧ s.txq = []) ∧ drainDoneRule s = raiseFault .evContext s) := by
  unfold drainDoneRule
  split
  · rename_i h
    exact .inl ⟨h.1, h.2.1, h.2.2, rfl⟩
  · exact .inr ⟨‹_›, rfl⟩

theorem closeDoneRule_cases (s : State) :
    (s.ls = .draining ∧ s.dsub = true ∧ s.cont = .exit ∧
      closeDoneRule s = { s with handle := false, dsub := false, ls := .terminating }) ∨
    (s.ls = .draining ∧ s.dsub = true ∧ s.cont = .none ∧
      closeDoneRule s = { s with handle := false, dsub := false, ls := .closed }) ∨
    (¬ (s.ls = .draining ∧ s.dsub = true) ∧ closeDoneRule s = raiseFault .evContext s) := by
  unfold closeDoneRule
  split
  · rename_i h
    cases hc : s.cont
    · exact .inr (.inl ⟨h.1, h.2, by simp⟩)
    · exact .inl ⟨h.1, h.2, by simp⟩
  · exact .inr (.inr ⟨‹_›, rfl⟩)

theorem terminateRule_cases (s : State) :
    (s.ending = true ∧ terminateRule s = s) ∨
    (s.ending = false ∧ (s.ls = .disconnected ∨ s.ls = .opened ∨ s.ls = .closed) ∧
      terminateRule s = enterTermination .signal s) ∨
    (s.ending = false ∧ (s.ls = .connecting ∨ s.ls = .terminating) ∧ terminateRule s = recordCause .signal s) ∨
    (s.ending = false ∧ s.ls = .draining ∧ terminateRule s = { recordCause .signal s with cont := .exit }) ∨
    (s.ending = false ∧ s.ls = .exited ∧ terminateRule s = s) := by
  unfold terminateRule
  cases he : s.ending <;> cases hl : s.ls <;> simp

theorem tickRule_cases (s : State) :
    (s.monOn = false ∧ s.forcedOff = false ∧
      tickRule s = { emit .cmdDisplayOff s with forcedOn := false, forcedOff := false }) ∨
    (s.monOn = true ∧ s.forcedOn = false ∧
      tickRule s = { emit .cmdDisplayOn s with forcedOn := false, forcedOff := false }) ∨
    ((s.monOn = false ∧ s.forcedOff = true ∨ s.monOn = true ∧ s.forcedOn = true) ∧
      tickRule s = { s with forcedOn := false, forcedOff := false }) := by
  unfold tickRule tickForceOn tickForceOff
  cases hm : s.monOn <;> cases h1 : s.forcedOn <;> cases h2 : s.forcedOff <;> simp [emit, hm, h1]

theorem execStep_cases (s : State) :
    (s.ls = .terminating ∧ s.handle = true ∧ exec .step s = .next (beginDrain .exit s)) ∨
    (s.ls = .terminating ∧ s.handle = false ∧ exec .step s = .next (exitProcess s)) ∨
    (s.ls ≠ .terminating ∧ exec .step s = .next s) := by
  rw [exec_step]
  by_cases h : s.ls = .terminating
  · cases hh : s.handle <;> simp [h]
  · simp [h]

/-! The step and the port. -/

/-- What one step is: nothing without a stimulus, else the stimulus run from the state that has taken it. -/
theorem step_cases (s : State) :
    (s.schedule = [] ∧ step s = .next s) ∨
    (∃ stim rest, s.schedule = stim :: rest ∧ step s = runStimulus stim (takeStimulus stim rest s)) := by
  cases h : s.schedule with
  | nil => exact .inl ⟨rfl, by simp [step, h]⟩
  | cons stim rest => exact .inr ⟨stim, rest, rfl, by simp [step, h]⟩

/-- What a stimulus does: nothing in EXITED but BLOCK's own idle step, EV_ILLEGAL on an illegal word, else the decoded event. -/
theorem runStimulus_cases (stim : Stimulus) (s : State) :
    (s.ls = .exited ∧ runStimulus stim s = .next s) ∨
    (s.ls ≠ .exited ∧ (∃ w smp e, stim = .present w smp ∧ decode w = .error e) ∧
      runStimulus stim s = .next (raiseFault .evIllegal s)) ∨
    (s.ls ≠ .exited ∧ ∃ i, runStimulus stim s = exec i s ∧
      ((stim = .block ∧ i = .step) ∨ ∃ w smp, stim = .present w smp ∧ decode w = .ok i)) := by
  by_cases hx : s.ls = .exited
  · refine .inl ⟨hx, ?_⟩
    cases stim with
    | block => simp [runStimulus, exec_step, hx]
    | present w smp => simp [runStimulus, acceptWord, hx]
  · cases stim with
    | block => exact .inr (.inr ⟨hx, .step, rfl, .inl ⟨rfl, rfl⟩⟩)
    | present w smp =>
      cases hd : decode w with
      | error e => exact .inr (.inl ⟨hx, ⟨w, smp, e, rfl, hd⟩, by simp [runStimulus, acceptWord, hx, hd]⟩)
      | ok i => exact .inr (.inr ⟨hx, i, by simp [runStimulus, acceptWord, hx, hd], .inr ⟨w, smp, rfl, hd⟩⟩)

end Sys2Proof.Machine
end

