-- ==== Sys2Proof/Laws/Ops.lean ====
section
/-! SUPPORT. One lemma per shared operation over numbers, bars, frames and lists that says once what it gives. -/

namespace Sys2Proof.Machine

/-- The range check of 40_encoder.md R136, as a whole. -/
theorem unitValue_eq_some_iff (arith : BarArith) (x : Num) (q : Rat) :
    unitValue arith x = some q ↔ numberValue arith x = some q ∧ 0 ≤ q ∧ q ≤ 1 := by
  unfold unitValue
  cases h : numberValue arith x with
  | none => simp
  | some r =>
    by_cases hr : 0 ≤ r ∧ r ≤ 1
    · simp only [hr, and_self, if_true, Option.some.injEq]
      exact ⟨fun e => ⟨e, e ▸ hr⟩, fun e => e.1⟩
    · simp only [if_neg hr, Option.some.injEq, reduceCtorEq, false_iff]
      rintro ⟨rfl, h2⟩
      exact hr h2

theorem barOf_eq_some_iff (arith : BarArith) (x : Num) (b : Byte) :
    barOf arith x = some b ↔ ∃ q, unitValue arith x = some q ∧ b = quantise arith q := by
  unfold barOf
  cases unitValue arith x <;> simp [eq_comm]

theorem barOf_eq_none_iff (arith : BarArith) (x : Num) : barOf arith x = none ↔ unitValue arith x = none := by
  unfold barOf
  cases unitValue arith x <;> simp

theorem coreBar_of_invalid (arith : BarArith) (c : CoreReading) (h : c.valid = false) : coreBar arith c = some 0 := by
  simp [coreBar, h]

theorem coreBar_of_valid (arith : BarArith) (c : CoreReading) (h : c.valid = true) :
    coreBar arith c = barOf arith c.value := by
  simp [coreBar, h]

/-- The bars of a list of cores, element by element. -/
theorem coreBars_eq_some_iff (arith : BarArith) (cs : List CoreReading) (bs : List Byte) :
    coreBars arith cs = some bs ↔ List.Forall₂ (fun c b => coreBar arith c = some b) cs bs := by
  induction cs generalizing bs with
  | nil => cases bs <;> simp [coreBars]
  | cons c cs ih =>
    unfold coreBars
    cases hb : coreBar arith c with
    | none => cases bs <;> simp [hb]
    | some b =>
      cases hbs : coreBars arith cs with
      | none =>
        cases bs with
        | nil => simp
        | cons b' bs' => simp [← ih bs', hbs]
      | some bs0 =>
        cases bs with
        | nil => simp
        | cons b' bs' => simp [← ih bs', hbs, hb]

/-- A list of cores has no bars exactly when one of them has none. -/
theorem coreBars_eq_none_iff (arith : BarArith) (cs : List CoreReading) :
    coreBars arith cs = none ↔ ∃ c ∈ cs, coreBar arith c = none := by
  induction cs with
  | nil => simp [coreBars]
  | cons c cs ih =>
    unfold coreBars
    cases hb : coreBar arith c with
    | none => simp [hb]
    | some b =>
      cases hbs : coreBars arith cs with
      | none => simp [hb, ← ih, hbs]
      | some bs => simp [hb, ← ih, hbs]

theorem coreBars_length (arith : BarArith) (cs : List CoreReading) (bs : List Byte) (h : coreBars arith cs = some bs) :
    bs.length = cs.length :=
  ((coreBars_eq_some_iff arith cs bs).1 h).length_eq.symm

/-- Everything ENCODE can answer with a frame (40_encoder.md R137). -/
theorem encodeFrame_eq_some_iff (arith : BarArith) (smp : Sample) (f : List Byte) :
    encodeFrame arith smp = some f ↔
      ∃ bars m, coreBars arith (keptCores smp) = some bars ∧ barOf arith smp.mem = some m ∧
        f = headerByte (keptCores smp).length :: (bars ++ [m]) := by
  unfold encodeFrame
  cases coreBars arith (keptCores smp) <;> cases barOf arith smp.mem <;> simp [eq_comm]

/-- ENCODE gives no frame exactly when a kept core or the memory fraction has no bar. -/
theorem encodeFrame_eq_none_iff (arith : BarArith) (smp : Sample) :
    encodeFrame arith smp = none ↔
      (∃ c ∈ keptCores smp, coreBar arith c = none) ∨ barOf arith smp.mem = none := by
  rw [← coreBars_eq_none_iff]
  unfold encodeFrame
  cases coreBars arith (keptCores smp) <;> cases barOf arith smp.mem <;> simp

theorem keptCores_length (smp : Sample) : (keptCores smp).length = min 31 smp.cores.length := by
  simp [keptCores, Config.maxCores]

theorem headerByte_toNat (c : Nat) (h : c ≤ 31) : (headerByte c).toNat = 128 + c + 1 := by
  simp only [headerByte, Config.sof, BitVec.toNat_ofNat]
  omega

/-! The observers of OUT, over appending. -/

theorem framesOf_append (a b : List Action) : framesOf (a ++ b) = framesOf a ++ framesOf b := by
  simp [framesOf]

theorem wiresOf_append (a b : List Action) : wiresOf (a ++ b) = wiresOf a ++ wiresOf b := by
  simp [wiresOf]

theorem logsOf_append (a b : List Action) : logsOf (a ++ b) = logsOf a ++ logsOf b := by
  simp [logsOf]

theorem exitsOf_append (a b : List Action) : exitsOf (a ++ b) = exitsOf a ++ exitsOf b := by
  simp [exitsOf]

theorem closingRequestsOf_append (a b : List Action) :
    closingRequestsOf (a ++ b) = closingRequestsOf a ++ closingRequestsOf b := by
  simp [closingRequestsOf]

theorem displayCommandsOf_append (a b : List Action) :
    displayCommandsOf (a ++ b) = displayCommandsOf a ++ displayCommandsOf b := by
  simp [displayCommandsOf]

/-- One more action: REQ_OPEN starts the stream anew, any other lengthens it. -/
theorem sinceReqOpen_concat (out : List Action) (a : Action) :
    sinceReqOpen (out ++ [a]) = if isReqOpen a then [] else sinceReqOpen out ++ [a] := by
  simp [sinceReqOpen]

/-- Two more actions, the second a REQ_OPEN or not. -/
theorem sinceReqOpen_pair (out : List Action) (a b : Action) :
    sinceReqOpen (out ++ [a, b]) = if isReqOpen b then [] else sinceReqOpen (out ++ [a]) ++ [b] := by
  simp [sinceReqOpen]

theorem framesOf_pair (a b : Action) : framesOf [a, b] = framesOf [a] ++ framesOf [b] := framesOf_append [a] [b]
theorem wiresOf_pair (a b : Action) : wiresOf [a, b] = wiresOf [a] ++ wiresOf [b] := wiresOf_append [a] [b]
theorem logsOf_pair (a b : Action) : logsOf [a, b] = logsOf [a] ++ logsOf [b] := logsOf_append [a] [b]
theorem exitsOf_pair (a b : Action) : exitsOf [a, b] = exitsOf [a] ++ exitsOf [b] := exitsOf_append [a] [b]
theorem closingRequestsOf_pair (a b : Action) : closingRequestsOf [a, b] = closingRequestsOf [a] ++ closingRequestsOf [b] := closingRequestsOf_append [a] [b]
theorem displayCommandsOf_pair (a b : Action) : displayCommandsOf [a, b] = displayCommandsOf [a] ++ displayCommandsOf [b] := displayCommandsOf_append [a] [b]

/-! The observers of OUT, on each action. -/

@[simp] theorem framesOf_nil : framesOf [] = [] := rfl
@[simp] theorem framesOf_reqOpen (p : String) (n : Nat) : framesOf [.reqOpen p n] = [] := rfl
@[simp] theorem framesOf_frame (f : List Byte) : framesOf [.frame f] = [f] := rfl
@[simp] theorem framesOf_wire (b : Byte) : framesOf [.wire b] = [] := rfl
@[simp] theorem framesOf_reqDrain : framesOf [.reqDrain] = [] := rfl
@[simp] theorem framesOf_reqClose : framesOf [.reqClose] = [] := rfl
@[simp] theorem framesOf_cmdDisplayOn : framesOf [.cmdDisplayOn] = [] := rfl
@[simp] theorem framesOf_cmdDisplayOff : framesOf [.cmdDisplayOff] = [] := rfl
@[simp] theorem framesOf_log (k : LogKind) : framesOf [.log k] = [] := rfl
@[simp] theorem framesOf_exit (c : Nat) : framesOf [.exit c] = [] := rfl

@[simp] theorem wiresOf_nil : wiresOf [] = [] := rfl
@[simp] theorem wiresOf_reqOpen (p : String) (n : Nat) : wiresOf [.reqOpen p n] = [] := rfl
@[simp] theorem wiresOf_frame (f : List Byte) : wiresOf [.frame f] = [] := rfl
@[simp] theorem wiresOf_wire (b : Byte) : wiresOf [.wire b] = [b] := rfl
@[simp] theorem wiresOf_reqDrain : wiresOf [.reqDrain] = [] := rfl
@[simp] theorem wiresOf_reqClose : wiresOf [.reqClose] = [] := rfl
@[simp] theorem wiresOf_cmdDisplayOn : wiresOf [.cmdDisplayOn] = [] := rfl
@[simp] theorem wiresOf_cmdDisplayOff : wiresOf [.cmdDisplayOff] = [] := rfl
@[simp] theorem wiresOf_log (k : LogKind) : wiresOf [.log k] = [] := rfl
@[simp] theorem wiresOf_exit (c : Nat) : wiresOf [.exit c] = [] := rfl

@[simp] theorem logsOf_nil : logsOf [] = [] := rfl
@[simp] theorem logsOf_reqOpen (p : String) (n : Nat) : logsOf [.reqOpen p n] = [] := rfl
@[simp] theorem logsOf_frame (f : List Byte) : logsOf [.frame f] = [] := rfl
@[simp] theorem logsOf_wire (b : Byte) : logsOf [.wire b] = [] := rfl
@[simp] theorem logsOf_reqDrain : logsOf [.reqDrain] = [] := rfl
@[simp] theorem logsOf_reqClose : logsOf [.reqClose] = [] := rfl
@[simp] theorem logsOf_cmdDisplayOn : logsOf [.cmdDisplayOn] = [] := rfl
@[simp] theorem logsOf_cmdDisplayOff : logsOf [.cmdDisplayOff] = [] := rfl
@[simp] theorem logsOf_log (k : LogKind) : logsOf [.log k] = [k] := rfl
@[simp] theorem logsOf_exit (c : Nat) : logsOf [.exit c] = [] := rfl

@[simp] theorem exitsOf_nil : exitsOf [] = [] := rfl
@[simp] theorem exitsOf_reqOpen (p : String) (n : Nat) : exitsOf [.reqOpen p n] = [] := rfl
@[simp] theorem exitsOf_frame (f : List Byte) : exitsOf [.frame f] = [] := rfl
@[simp] theorem exitsOf_wire (b : Byte) : exitsOf [.wire b] = [] := rfl
@[simp] theorem exitsOf_reqDrain : exitsOf [.reqDrain] = [] := rfl
@[simp] theorem exitsOf_reqClose : exitsOf [.reqClose] = [] := rfl
@[simp] theorem exitsOf_cmdDisplayOn : exitsOf [.cmdDisplayOn] = [] := rfl
@[simp] theorem exitsOf_cmdDisplayOff : exitsOf [.cmdDisplayOff] = [] := rfl
@[simp] theorem exitsOf_log (k : LogKind) : exitsOf [.log k] = [] := rfl
@[simp] theorem exitsOf_exit (c : Nat) : exitsOf [.exit c] = [c] := rfl

@[simp] theorem closingRequestsOf_nil : closingRequestsOf [] = [] := rfl
@[simp] theorem closingRequestsOf_reqOpen (p : String) (n : Nat) : closingRequestsOf [.reqOpen p n] = [] := rfl
@[simp] theorem closingRequestsOf_frame (f : List Byte) : closingRequestsOf [.frame f] = [] := rfl
@[simp] theorem closingRequestsOf_wire (b : Byte) : closingRequestsOf [.wire b] = [] := rfl
@[simp] theorem closingRequestsOf_reqDrain : closingRequestsOf [.reqDrain] = [.reqDrain] := rfl
@[simp] theorem closingRequestsOf_reqClose : closingRequestsOf [.reqClose] = [.reqClose] := rfl
@[simp] theorem closingRequestsOf_cmdDisplayOn : closingRequestsOf [.cmdDisplayOn] = [] := rfl
@[simp] theorem closingRequestsOf_cmdDisplayOff : closingRequestsOf [.cmdDisplayOff] = [] := rfl
@[simp] theorem closingRequestsOf_log (k : LogKind) : closingRequestsOf [.log k] = [] := rfl
@[simp] theorem closingRequestsOf_exit (c : Nat) : closingRequestsOf [.exit c] = [] := rfl

@[simp] theorem displayCommandsOf_nil : displayCommandsOf [] = [] := rfl
@[simp] theorem displayCommandsOf_reqOpen (p : String) (n : Nat) : displayCommandsOf [.reqOpen p n] = [] := rfl
@[simp] theorem displayCommandsOf_frame (f : List Byte) : displayCommandsOf [.frame f] = [] := rfl
@[simp] theorem displayCommandsOf_wire (b : Byte) : displayCommandsOf [.wire b] = [] := rfl
@[simp] theorem displayCommandsOf_reqDrain : displayCommandsOf [.reqDrain] = [] := rfl
@[simp] theorem displayCommandsOf_reqClose : displayCommandsOf [.reqClose] = [] := rfl
@[simp] theorem displayCommandsOf_cmdDisplayOn : displayCommandsOf [.cmdDisplayOn] = [.cmdDisplayOn] := rfl
@[simp] theorem displayCommandsOf_cmdDisplayOff : displayCommandsOf [.cmdDisplayOff] = [.cmdDisplayOff] := rfl
@[simp] theorem displayCommandsOf_log (k : LogKind) : displayCommandsOf [.log k] = [] := rfl
@[simp] theorem displayCommandsOf_exit (c : Nat) : displayCommandsOf [.exit c] = [] := rfl

@[simp] theorem isReqOpen_reqOpen (p : String) (n : Nat) : isReqOpen (.reqOpen p n) = true := rfl
@[simp] theorem isReqOpen_frame (f : List Byte) : isReqOpen (.frame f) = false := rfl
@[simp] theorem isReqOpen_wire (b : Byte) : isReqOpen (.wire b) = false := rfl
@[simp] theorem isReqOpen_reqDrain : isReqOpen (.reqDrain) = false := rfl
@[simp] theorem isReqOpen_reqClose : isReqOpen (.reqClose) = false := rfl
@[simp] theorem isReqOpen_cmdDisplayOn : isReqOpen (.cmdDisplayOn) = false := rfl
@[simp] theorem isReqOpen_cmdDisplayOff : isReqOpen (.cmdDisplayOff) = false := rfl
@[simp] theorem isReqOpen_log (k : LogKind) : isReqOpen (.log k) = false := rfl
@[simp] theorem isReqOpen_exit (c : Nat) : isReqOpen (.exit c) = false := rfl

end Sys2Proof.Machine
end

