-- ==== Sys2Proof/Laws/EventCase.lean ====
section
/-! SUPPORT. The one inversion of `exec`: every way an event can take a state to the next one, guards included. A proof about every
event is a `cases` of it. -/

namespace Sys2Proof.Machine

/-- `EventCase i s t`: the event `i` takes `s` to `t`, by one line of 43_link.md R190's table or by a fault. -/
inductive EventCase : Instr → State → State → Prop where
  | exited (i : Instr) (s : State) (hx : s.ls = .exited) : EventCase i s s
  | context (i : Instr) (s : State) (hx : s.ls ≠ .exited) (hi : i ≠ .step) (hg : admits i s = false) :
      EventCase i s (raiseFault .evContext s)
  | start (s : State) (hl : s.ls = .disconnected) : EventCase .start s (requestOpen { s with ls := .connecting })
  | openOkEnding (s : State) (hl : s.ls = .connecting) (he : s.ending = true) :
      EventCase .openOk s { s with handle := true, retry := 0, ls := .terminating }
  | openOk (s : State) (hl : s.ls = .connecting) (he : s.ending = false) :
      EventCase .openOk s { s with handle := true, retry := 0, ls := .opened }
  | openFailRetry (s : State) (hl : s.ls = .connecting) (he : s.ending = false)
      (hr : s.retry.toNat < s.params.reconnectMax.val) :
      EventCase .openFail s (retryOpen (emit (.log .openFail) s))
  | openFailFatal (s : State) (hl : s.ls = .connecting)
      (hr : s.ending = true ∨ ¬ s.retry.toNat < s.params.reconnectMax.val) :
      EventCase .openFail s (enterTermination .openFail (emit (.log .openFail) s))
  | rxCycle (b : Byte) (s : State) (f : List Byte) (hl : s.ls = .opened) (he : s.ending = false)
      (hf : encodeFrame s.params.barArith s.draw = some f) : EventCase (.rx b) s (finishCycle b f s)
  | rxInRange (b : Byte) (s : State) (hl : s.ls = .opened) (he : s.ending = false)
      (hf : encodeFrame s.params.barArith s.draw = none) : EventCase (.rx b) s (raiseFault .inRange s)
  | rxIgnored (b : Byte) (s : State) (hx : s.ls ≠ .exited) (hi : ¬ (s.ls = .opened ∧ s.ending = false)) :
      EventCase (.rx b) s s
  | txTake (s : State) (b : Byte) (rest : List Byte) (hx : s.ls ≠ .exited) (hh : s.handle = true)
      (hq : s.txq = b :: rest) : EventCase .txTake s (emit (.wire b) { s with txq := rest })
  | linkLostRetry (s : State) (hh : s.handle = true) (hl : s.ls = .opened) (he : s.ending = false)
      (hr : s.retry.toNat < s.params.reconnectMax.val) : EventCase .linkLost s (retryOpen (dropLink s))
  | linkLostFatal (s : State) (hx : s.ls ≠ .exited) (hh : s.handle = true)
      (hr : s.ls ≠ .opened ∨ s.ending = true ∨ ¬ s.retry.toNat < s.params.reconnectMax.val) :
      EventCase .linkLost s (enterTermination .linkLost (dropLink s))
  | drainDone (s : State) (hl : s.ls = .draining) (hd : s.dsub = false) (hq : s.txq = []) :
      EventCase .drainDone s (emit .reqClose { s with dsub := true })
  | closeDoneExit (s : State) (hl : s.ls = .draining) (hd : s.dsub = true) (hc : s.cont = .exit) :
      EventCase .closeDone s { s with handle := false, dsub := false, ls := .terminating }
  | closeDoneNone (s : State) (hl : s.ls = .draining) (hd : s.dsub = true) (hc : s.cont = .none) :
      EventCase .closeDone s { s with handle := false, dsub := false, ls := .closed }
  | disconnect (s : State) (hl : s.ls = .opened) (he : s.ending = false) :
      EventCase .disconnect s (beginDrain .none s)
  | terminateAgain (s : State) (hx : s.ls ≠ .exited) (he : s.ending = true) : EventCase .terminate s s
  | terminateAtOnce (s : State) (he : s.ending = false) (hl : s.ls = .disconnected ∨ s.ls = .opened ∨ s.ls = .closed) :
      EventCase .terminate s (enterTermination .signal s)
  | terminateLater (s : State) (he : s.ending = false) (hl : s.ls = .connecting ∨ s.ls = .terminating) :
      EventCase .terminate s (recordCause .signal s)
  | terminateDraining (s : State) (he : s.ending = false) (hl : s.ls = .draining) :
      EventCase .terminate s { recordCause .signal s with cont := .exit }
  | tickOff (s : State) (hx : s.ls ≠ .exited) (hm : s.monOn = false) (hf : s.forcedOff = false) :
      EventCase .tick s { emit .cmdDisplayOff s with forcedOn := false, forcedOff := false }
  | tickOn (s : State) (hx : s.ls ≠ .exited) (hm : s.monOn = true) (hf : s.forcedOn = false) :
      EventCase .tick s { emit .cmdDisplayOn s with forcedOn := false, forcedOff := false }
  | tickForced (s : State) (hx : s.ls ≠ .exited)
      (hm : s.monOn = false ∧ s.forcedOff = true ∨ s.monOn = true ∧ s.forcedOn = true) :
      EventCase .tick s { s with forcedOn := false, forcedOff := false }
  | stepDrain (s : State) (hl : s.ls = .terminating) (hh : s.handle = true) :
      EventCase .step s (beginDrain .exit s)
  | stepExit (s : State) (hl : s.ls = .terminating) (hh : s.handle = false) : EventCase .step s (exitProcess s)
  | stepIdle (s : State) (hl : s.ls ≠ .terminating) : EventCase .step s s

/-- Every next state of an event is one of the cases. -/
theorem exec_eventCase {i : Instr} {s t : State} (h : exec i s = .next t) : EventCase i s t := by
  by_cases hx : s.ls = .exited
  · have ht : t = s := by
      cases i <;>
        simp only [exec_start, exec_openOk, exec_openFail, exec_rx, exec_txTake, exec_linkLost, exec_drainDone,
          exec_closeDone, exec_disconnect, exec_terminate, exec_tick, exec_step, hx, if_true, if_false, reduceCtorEq,
          Host.Outcome.next.injEq] at h <;>
        exact h.symm
    exact ht ▸ .exited i s hx
  · cases i with
    | start =>
      rw [exec_start, if_neg hx] at h
      cases h
      rcases startRule_cases s with ⟨hl, e⟩ | ⟨hl, e⟩ <;> rw [e]
      · exact .start s hl
      · exact .context _ s hx (by simp) (by simp [admits, hl])
    | openOk =>
      rw [exec_openOk, if_neg hx] at h
      cases h
      rcases openOkRule_cases s with ⟨hl, he, e⟩ | ⟨hl, he, e⟩ | ⟨hl, e⟩ <;> rw [e]
      · exact .openOkEnding s hl he
      · exact .openOk s hl he
      · exact .context _ s hx (by simp) (by simp [admits, hl])
    | openFail =>
      rw [exec_openFail, if_neg hx] at h
      cases h
      rcases openFailRule_cases s with ⟨hl, he, hr, e⟩ | ⟨hl, hr, e⟩ | ⟨hl, e⟩ <;> rw [e]
      · exact .openFailRetry s hl he hr
      · exact .openFailFatal s hl hr
      · exact .context _ s hx (by simp) (by simp [admits, hl])
    | rx b =>
      rw [exec_rx, if_neg hx] at h
      cases h
      rcases rxRule_cases b s with ⟨hl, he, f, hf, e⟩ | ⟨hl, he, hf, e⟩ | ⟨hi, e⟩ <;> rw [e]
      · exact .rxCycle b s f hl he hf
      · exact .rxInRange b s hl he hf
      · exact .rxIgnored b s hx hi
    | txTake =>
      rw [exec_txTake, if_neg hx] at h
      cases h
      rcases txTakeRule_cases s with ⟨hh, b, rest, hq, e⟩ | ⟨hg, e⟩ <;> rw [e]
      · exact .txTake s b rest hx hh hq
      · exact .context _ s hx (by simp) (by rcases hg with hg | hg <;> simp [admits, hg])
    | linkLost =>
      rw [exec_linkLost, if_neg hx] at h
      cases h
      rcases linkLostRule_cases s with ⟨hh, hl, he, hr, e⟩ | ⟨hh, hr, e⟩ | ⟨hh, e⟩ <;> rw [e]
      · exact .linkLostRetry s hh hl he hr
      · exact .linkLostFatal s hx hh hr
      · exact .context _ s hx (by simp) (by simp [admits, hh])
    | drainDone =>
      rw [exec_drainDone, if_neg hx] at h
      cases h
      rcases drainDoneRule_cases s with ⟨hl, hd, hq, e⟩ | ⟨hg, e⟩ <;> rw [e]
      · exact .drainDone s hl hd hq
      · exact .context _ s hx (by simp) (by simpa [admits, hx, and_assoc] using hg)
    | closeDone =>
      rw [exec_closeDone, if_neg hx] at h
      cases h
      rcases closeDoneRule_cases s with ⟨hl, hd, hc, e⟩ | ⟨hl, hd, hc, e⟩ | ⟨hg, e⟩ <;> rw [e]
      · exact .closeDoneExit s hl hd hc
      · exact .closeDoneNone s hl hd hc
      · exact .context _ s hx (by simp) (by simpa [admits, hx] using hg)
    | disconnect =>
      rw [exec_disconnect, if_neg hx] at h
      cases h
      rcases disconnectRule_cases s with ⟨hl, he, e⟩ | ⟨hg, e⟩ <;> rw [e]
      · exact .disconnect s hl he
      · exact .context _ s hx (by simp) (by simpa [admits, hx] using hg)
    | terminate =>
      rw [exec_terminate, if_neg hx] at h
      cases h
      rcases terminateRule_cases s with ⟨he, e⟩ | ⟨he, hl, e⟩ | ⟨he, hl, e⟩ | ⟨he, hl, e⟩ | ⟨he, hl, e⟩ <;> rw [e]
      · exact .terminateAgain s hx he
      · exact .terminateAtOnce s he hl
      · exact .terminateLater s he hl
      · exact .terminateDraining s he hl
      · exact absurd hl hx
    | tick =>
      rw [exec_tick, if_neg hx] at h
      cases h
      rcases tickRule_cases s with ⟨hm, hf, e⟩ | ⟨hm, hf, e⟩ | ⟨hm, e⟩ <;> rw [e]
      · exact .tickOff s hx hm hf
      · exact .tickOn s hx hm hf
      · exact .tickForced s hx hm
    | step =>
      rcases execStep_cases s with ⟨hl, hh, e⟩ | ⟨hl, hh, e⟩ | ⟨hl, e⟩ <;> rw [e] at h <;> cases h
      · exact .stepDrain s hl hh
      · exact .stepExit s hl hh
      · exact .stepIdle s hl

/-- Every next state of a step: nothing was presented; or, from the state that has taken the stimulus, nothing in EXITED, EV_ILLEGAL,
or an event's case. -/
theorem step_eventCase {s t : State} (h : step s = .next t) :
    (s.schedule = [] ∧ t = s) ∨
    ∃ stim rest, s.schedule = stim :: rest ∧
      let s' := takeStimulus stim rest s
      (s.ls = .exited ∧ t = s') ∨ (s.ls ≠ .exited ∧ t = raiseFault .evIllegal s') ∨
        (s.ls ≠ .exited ∧ ∃ i, EventCase i s' t) := by
  rcases step_cases s with ⟨hs, e⟩ | ⟨stim, rest, hs, e⟩ <;> rw [e] at h
  · cases h
    exact .inl ⟨hs, rfl⟩
  · refine .inr ⟨stim, rest, hs, ?_⟩
    rcases runStimulus_cases stim (takeStimulus stim rest s) with ⟨hx, e⟩ | ⟨hx, _, e⟩ | ⟨hx, i, e, _⟩ <;> rw [e] at h
    · cases h
      exact .inl ⟨hx, rfl⟩
    · cases h
      exact .inr (.inl ⟨hx, rfl⟩)
    · exact .inr (.inr ⟨hx, i, exec_eventCase h⟩)

/-- A run of no step. -/
theorem core_run_zero (s : State) : Sys2Proof.core.run 0 s = .next s := rfl

/-- A run of `n + 1` steps, once its first step is known. -/
theorem core_run_succ {n : Nat} {s t : State} (h : step s = .next t) :
    Sys2Proof.core.run (n + 1) s = Sys2Proof.core.run n t := by
  have h' : Sys2Proof.core.step s = .next t := h
  simp only [Host.Core.run, h']

end Sys2Proof.Machine
end

