-- ==== Sys2Proof/Laws/Numbers.lean ====
section
/-! SUPPORT. What the number operations of Machine/Operands.lean give: the rounding of a quotient, the exponent of a quotient, and
the binary64 number as a rational. -/

namespace Sys2Proof.Machine

/-- The rounded quotient is within half a unit of the quotient, on both sides. -/
theorem roundTiesEven_near (n d : Nat) (hd : 0 < d) :
    2 * n ≤ 2 * (roundTiesEven n d * d) + d ∧ 2 * (roundTiesEven n d * d) ≤ 2 * n + d := by
  have h := Nat.div_add_mod n d
  have hm := Nat.mod_lt n hd
  have hc : d * (n / d) = n / d * d := Nat.mul_comm d (n / d)
  unfold roundTiesEven
  split
  · omega
  · split
    · rw [Nat.add_mul]
      omega
    · rcases Nat.mod_two_eq_zero_or_one (n / d) with h2 | h2 <;> rw [h2, Nat.add_mul] <;> omega

/-- A quotient that is a whole number is itself. -/
theorem roundTiesEven_mul (k d : Nat) (hd : 0 < d) : roundTiesEven (k * d) d = k := by
  simp [roundTiesEven, hd]

/-- `2^t` of an integer exponent, from the two natural exponents that the operations use. -/
theorem two_zpow_eq (t : Int) : (2 : Rat) ^ t = 2 ^ t.toNat / 2 ^ (-t).toNat := by
  rcases le_total 0 t with h | h
  · rw [show (-t).toNat = 0 by omega, pow_zero, div_one, ← zpow_natCast, Int.toNat_of_nonneg h]
  · rw [show t.toNat = 0 by omega, pow_zero, one_div, ← zpow_natCast, Int.toNat_of_nonneg (by omega), zpow_neg, inv_inv]

/-- `floorLog2` is the exponent of the quotient. -/
theorem floorLog2_spec (n d : Nat) (hn : 0 < n) (hd : 0 < d) :
    (2 : Rat) ^ floorLog2 n d ≤ n / d ∧ (n : Rat) / d < 2 ^ (floorLog2 n d + 1) := by
  have hd' : (0 : Rat) < d := by exact_mod_cast hd
  have n1 : ((2 ^ n.log2 : Nat) : Rat) ≤ n := by exact_mod_cast Nat.log2_self_le (by omega)
  have n2 : (n : Rat) < ((2 ^ (n.log2 + 1) : Nat) : Rat) := by exact_mod_cast Nat.lt_log2_self
  have d1 : ((2 ^ d.log2 : Nat) : Rat) ≤ d := by exact_mod_cast Nat.log2_self_le (by omega)
  have d2 : (d : Rat) < ((2 ^ (d.log2 + 1) : Nat) : Rat) := by exact_mod_cast Nat.lt_log2_self
  push_cast at n1 n2 d1 d2
  have p : (0 : Rat) < 2 ^ d.log2 := by positivity
  have two : (2 : Rat) ≠ 0 := by norm_num
  have split (k : Int) : (2 : Rat) ^ ((n.log2 : Int) - (d.log2 : Int) + k) = 2 ^ n.log2 / 2 ^ d.log2 * 2 ^ k := by
    rw [zpow_add₀ two, zpow_sub₀ two, zpow_natCast, zpow_natCast]
  have hi : (n : Rat) / d < 2 ^ ((n.log2 : Int) - (d.log2 : Int) + 1) := by
    rw [split, zpow_one, div_lt_iff₀ hd']
    calc (n : Rat) < 2 ^ n.log2 * 2 := by rw [← pow_succ]; exact n2
      _ = 2 ^ n.log2 / 2 ^ d.log2 * 2 * 2 ^ d.log2 := by field_simp
      _ ≤ 2 ^ n.log2 / 2 ^ d.log2 * 2 * d := by gcongr
  have lo : (2 : Rat) ^ ((n.log2 : Int) - (d.log2 : Int) + (-1)) ≤ n / d := by
    rw [split, zpow_neg_one, le_div_iff₀ hd']
    calc (2 : Rat) ^ n.log2 / 2 ^ d.log2 * 2⁻¹ * d ≤ 2 ^ n.log2 / 2 ^ d.log2 * 2⁻¹ * (2 ^ (d.log2 + 1)) := by
          gcongr
      _ = 2 ^ n.log2 := by rw [pow_succ]; field_simp
      _ ≤ n := n1
  have test : n * 2 ^ (-((n.log2 : Int) - (d.log2 : Int))).toNat < d * 2 ^ ((n.log2 : Int) - (d.log2 : Int)).toNat ↔
      (n : Rat) / d < 2 ^ ((n.log2 : Int) - (d.log2 : Int)) := by
    rw [two_zpow_eq, div_lt_div_iff₀ hd' (by positivity)]
    constructor
    · intro h
      have : ((n * 2 ^ (-((n.log2 : Int) - (d.log2 : Int))).toNat : Nat) : Rat) <
          ((d * 2 ^ ((n.log2 : Int) - (d.log2 : Int)).toNat : Nat) : Rat) := by exact_mod_cast h
      push_cast at this
      linarith
    · intro h
      have : ((n * 2 ^ (-((n.log2 : Int) - (d.log2 : Int))).toNat : Nat) : Rat) <
          ((d * 2 ^ ((n.log2 : Int) - (d.log2 : Int)).toNat : Nat) : Rat) := by
        push_cast
        linarith
      exact_mod_cast this
  unfold floorLog2
  simp only
  split
  · rename_i h
    exact ⟨lo, by simpa using test.1 h⟩
  · rename_i h
    exact ⟨by simpa using mt test.2 h, hi⟩

/-- The binary64 number nearest a rational, as a whole number of units of its last place. -/
theorem nearestBinary64_eq (q : Rat) :
    nearestBinary64 q =
      (q.num.sign * (roundTiesEven (q.num.natAbs * 2 ^ (-lastPlace q.num.natAbs q.den).toNat)
        (q.den * 2 ^ (lastPlace q.num.natAbs q.den).toNat) : Nat) : Int) * (2 : Rat) ^ lastPlace q.num.natAbs q.den := by
  unfold nearestBinary64
  simp only
  rw [Rat.mkRat_eq_div, two_zpow_eq]
  push_cast
  ring

/-- Half way between two whole numbers the even one is taken. -/
theorem roundTiesEven_half (k n d : Nat) (h : 2 * n = (2 * k + 1) * d) (hd : 0 < d) :
    roundTiesEven n d = if k % 2 = 0 then k else k + 1 := by
  have hm : n / d = k := by
    have h2 : 2 * n = 2 * (k * d) + d := by rw [h]; ring
    have e1 : d * (n / d) + n % d = n := Nat.div_add_mod n d
    have lt := Nat.mod_lt n hd
    apply Nat.div_eq_of_lt_le
    · omega
    · rw [Nat.add_mul]
      omega
  have h3 := Nat.div_add_mod n d
  rw [hm] at h3
  have h2 : 2 * n = 2 * (d * k) + d := by rw [h]; ring
  have hr : 2 * (n % d) = d := by omega
  rw [roundTiesEven, hm, hr, if_neg (lt_irrefl _), if_neg (lt_irrefl _)]
  split <;> omega

/-- The exponent of a quotient is the only one that its bounds allow. -/
theorem floorLog2_eq (n d : Nat) (t : Int) (hn : 0 < n) (hd : 0 < d) (lo : (2 : Rat) ^ t ≤ n / d)
    (hi : (n : Rat) / d < 2 ^ (t + 1)) : floorLog2 n d = t := by
  have one : (1 : Rat) < 2 := by norm_num
  obtain ⟨h1, h2⟩ := floorLog2_spec n d hn hd
  have a := (zpow_lt_zpow_iff_right₀ one).1 (lt_of_le_of_lt h1 hi)
  have b := (zpow_lt_zpow_iff_right₀ one).1 (lt_of_le_of_lt lo h2)
  omega

end Sys2Proof.Machine
end

