-- ==== Sys2Proof/Laws/PerInstr.lean ====
section
/-! SUPPORT. The statements made of every event, one lemma per constructor of `Instr`: the event's word lies in its row of the
event map (30_encoding.md R98). -/

namespace Sys2Proof.Laws.EncodingMatchesRow

/-- The word of an event, masked by its row's `mask`, is its row's `match` (30_encoding.md R98). -/
def Statement (i : Instr) : Prop := encode i &&& rowMask i = rowMatch i

theorem start : Statement .start := rfl

theorem openOk : Statement .openOk := rfl

theorem openFail : Statement .openFail := rfl

theorem rx (data : Byte) : Statement (.rx data) := by
  unfold Statement encode rowMask rowMatch
  revert data
  decide

theorem txTake : Statement .txTake := rfl

theorem linkLost : Statement .linkLost := rfl

theorem drainDone : Statement .drainDone := rfl

theorem closeDone : Statement .closeDone := rfl

theorem disconnect : Statement .disconnect := rfl

theorem terminate : Statement .terminate := rfl

theorem tick : Statement .tick := rfl

theorem step : Statement .step := rfl

end Sys2Proof.Laws.EncodingMatchesRow
end

