-- ==== Sys2Proof/Machine/ScriptText.lean ====
section
/-! DEFINITION. The text of an event script (30_encoding.md R104, R105), read to its steps. The spellings that R104 leaves open are
in notes/assumptions/17.md. -/

namespace Sys2Proof.Machine

/-- The brace that opens a sample, U+007B. -/
def braceOpen : Char := Char.ofNat 0x7B

/-- The brace that closes a sample, U+007D. -/
def braceClose : Char := Char.ofNat 0x7D

/-- A space inside a line. -/
def isSpace (c : Char) : Bool := c == ' ' || c == '\t' || c == '\r'

/-- The text after its leading spaces. -/
def skipSpaces (cs : List Char) : List Char := cs.dropWhile isSpace

/-- The value of a digit of a base up to 16, if it is one. A hexadecimal digit may be in either case: R104 gives `hexdigit` by name
only (DESIGN CHOICE, notes/assumptions/17.md). -/
def digitValue (base : Nat) (c : Char) : Option Nat :=
  let v :=
    if '0' ≤ c ∧ c ≤ '9' then c.toNat - '0'.toNat
    else if 'a' ≤ c ∧ c ≤ 'f' then c.toNat - 'a'.toNat + 10
    else if 'A' ≤ c ∧ c ≤ 'F' then c.toNat - 'A'.toNat + 10
    else base
  if v < base then some v else none

/-- Whether a character is a digit of the base. -/
def isDigitOf (base : Nat) (c : Char) : Bool := (digitValue base c).isSome

/-- The number that a list of digits writes; a character that is no digit counts 0 and is never passed. -/
def digitsValue (base : Nat) (cs : List Char) : Nat :=
  cs.foldl (fun n c => n * base + (digitValue base c).getD 0) 0

/-- The text after an expected string, leading spaces skipped. -/
def expect (word : List Char) (cs : List Char) : Option (List Char) :=
  let cs := skipSpaces cs
  if word.isPrefixOf cs then some (cs.drop word.length) else none

/-- One or more digits of a base: how many, their value, and the text after them. -/
def readDigits (base : Nat) (cs : List Char) : Option (Nat × Nat × List Char) :=
  let ds := cs.takeWhile (isDigitOf base)
  if ds.isEmpty then none else some (ds.length, digitsValue base ds, cs.drop ds.length)

/-- The digits after a point, if there is a point: how many, their value, and the text after them. -/
def readPoint (base : Nat) (cs : List Char) : Nat × Nat × List Char :=
  match cs with
  | '.' :: rest => (readDigits base rest).getD (0, 0, rest)
  | _ => (0, 0, cs)

/-- A decimal fraction or a ratio (30_encoding.md R104). R104 gives both by example: a decimal starts with a digit, and a ratio is of
two whole numbers (DESIGN CHOICE, notes/assumptions/17.md). -/
def readDecimal (cs : List Char) : Option (Rat × List Char) := do
  let (_, whole, cs) ← readDigits 10 cs
  match cs with
  | '/' :: rest =>
    let (_, den, cs) ← readDigits 10 rest
    if den = 0 then none else some (mkRat whole den, cs)
  | _ =>
    let (places, part, cs) := readPoint 10 cs
    some (mkRat (whole * 10 ^ places + part : Nat) (10 ^ places), cs)

/-- A binary64 hex-float, such as 0x1.0204081020408p-7: its exact value (30_encoding.md R104). R104 gives it by example: `0x` and
`p` are lower-case, and a digit stands before the point (DESIGN CHOICE, notes/assumptions/17.md). -/
def readHexFloat (cs : List Char) : Option (Rat × List Char) := do
  let cs ← expect ['0', 'x'] cs
  let (_, whole, cs) ← readDigits 16 cs
  let (places, part, cs) := readPoint 16 cs
  let mantissa := whole * 16 ^ places + part
  match cs with
  | 'p' :: '-' :: rest =>
    let (_, e, cs) ← readDigits 10 rest
    some (mkRat mantissa (16 ^ places * 2 ^ e), cs)
  | 'p' :: '+' :: rest =>
    let (_, e, cs) ← readDigits 10 rest
    some (mkRat (mantissa * 2 ^ e : Nat) (16 ^ places), cs)
  | 'p' :: rest =>
    let (_, e, cs) ← readDigits 10 rest
    some (mkRat (mantissa * 2 ^ e : Nat) (16 ^ places), cs)
  | _ => none

/-- A `num` without a sign (30_encoding.md R104). -/
def readUnsigned (cs : List Char) : Option (Rat × List Char) :=
  match readHexFloat cs with
  | some r => some r
  | none => readDecimal (skipSpaces cs)

/-- A `num`, with or without a minus sign. -/
def readNum (cs : List Char) : Option (Num × List Char) := do
  match expect ['-'] cs with
  | some rest =>
    let (q, cs) ← readUnsigned rest
    some (.rational (mkRat (-q.num) q.den), cs)
  | none =>
    let (q, cs) ← readUnsigned cs
    some (.rational q, cs)

/-- A `core` (30_encoding.md R104): a valid value, `-` for an invalid core of value 0, or `-(v)` for an invalid core carrying `v`. -/
def readCore (cs : List Char) : Option (CoreReading × List Char) := do
  match expect ['-'] cs with
  | none =>
    let (v, cs) ← readNum cs
    some (⟨true, v⟩, cs)
  | some rest =>
    match expect ['('] rest with
    | some rest =>
      let (v, cs) ← readNum rest
      let cs ← expect [')'] cs
      some (⟨false, v⟩, cs)
    | none =>
      match readUnsigned rest with
      | some (q, cs) => some (⟨true, .rational (mkRat (-q.num) q.den)⟩, cs)
      | none => some (⟨false, .rational 0⟩, rest)

/-- A `cores` (30_encoding.md R104): a core, or `v x31` for copies of it. -/
def readCores (cs : List Char) : Option (List CoreReading × List Char) := do
  let (c, cs) ← readCore cs
  match expect ['x'] cs with
  | some rest =>
    let (_, n, cs) ← readDigits 10 (skipSpaces rest)
    some (List.replicate n c, cs)
  | none => some ([c], cs)

/-- The groups of a core list up to its closing bracket, at most `n` of them. -/
def readCoreGroups : Nat → List Char → Option (List CoreReading × List Char)
  | 0, _ => none
  | n + 1, cs => do
    let (group, cs) ← readCores cs
    match expect [']'] cs with
    | some cs => some (group, cs)
    | none =>
      let cs ← expect [','] cs
      let (groups, cs) ← readCoreGroups n cs
      some (group ++ groups, cs)

/-- A core list, brackets included; it may be empty. -/
def readCoreList (cs : List Char) : Option (List CoreReading × List Char) := do
  let cs ← expect ['['] cs
  match expect [']'] cs with
  | some cs => some ([], cs)
  | none => readCoreGroups cs.length cs

/-- A `sample` (30_encoding.md R104). -/
def readSample (cs : List Char) : Option (Sample × List Char) := do
  let cs ← expect [braceOpen] cs
  let cs ← expect ['c', 'o', 'r', 'e', 's'] cs
  let cs ← expect ['='] cs
  let (cores, cs) ← readCoreList cs
  let cs ← expect [','] cs
  let cs ← expect ['m', 'e', 'm'] cs
  let cs ← expect ['='] cs
  let (mem, cs) ← readNum cs
  let cs ← expect [braceClose] cs
  some (⟨cores, mem⟩, cs)

/-- A sample, if anything is left on the line. -/
def readOptionalSample (cs : List Char) : Option (Option Sample × List Char) :=
  if (skipSpaces cs).isEmpty then some (none, [])
  else (readSample cs).map fun r => (some r.1, r.2)

/-- The letters and digits that come next on the line, leading spaces skipped, and the text after them. -/
def readRun (cs : List Char) : List Char × List Char :=
  let run := (skipSpaces cs).takeWhile Char.isAlphanum
  (run, (skipSpaces cs).drop run.length)

/-- A run of exactly `n` digits of a base, as its value. -/
def exactDigits (base n : Nat) (run : List Char) : Option Nat :=
  if run.length = n ∧ run.all (isDigitOf base) then some (digitsValue base run) else none

/-- A `byte` (30_encoding.md R104): two hexadecimal digits, eight bits, or a decimal up to 255. -/
def readByte (cs : List Char) : Option (Byte × List Char) := do
  let (run, cs) := readRun cs
  let v ←
    match run with
    | '0' :: 'x' :: ds => exactDigits 16 2 ds
    | '0' :: 'b' :: ds => exactDigits 2 8 ds
    | ds =>
      if ds.isEmpty then none
      else (exactDigits 10 ds.length ds).filter fun v => decide (v ≤ 255)
  some (BitVec.ofNat 8 v, cs)

/-- The 16-bit word of a `WORD` line (30_encoding.md R104). -/
def readWord (cs : List Char) : Option (EventWord × List Char) :=
  let (run, cs) := readRun cs
  match run with
  | '0' :: 'x' :: ds => (exactDigits 16 4 ds).map fun v => (BitVec.ofNat 16 v, cs)
  | _ => none

/-- The mnemonics that stand alone on their line (30_encoding.md R104). -/
def plainMnemonic (m : List Char) : Option Instr :=
  if m = ['S', 'T', 'A', 'R', 'T'] then some .start
  else if m = ['O', 'P', 'E', 'N', '_', 'O', 'K'] then some .openOk
  else if m = ['O', 'P', 'E', 'N', '_', 'F', 'A', 'I', 'L'] then some .openFail
  else if m = ['T', 'X', '_', 'T', 'A', 'K', 'E'] then some .txTake
  else if m = ['L', 'I', 'N', 'K', '_', 'L', 'O', 'S', 'T'] then some .linkLost
  else if m = ['D', 'R', 'A', 'I', 'N', '_', 'D', 'O', 'N', 'E'] then some .drainDone
  else if m = ['C', 'L', 'O', 'S', 'E', '_', 'D', 'O', 'N', 'E'] then some .closeDone
  else if m = ['D', 'I', 'S', 'C', 'O', 'N', 'N', 'E', 'C', 'T'] then some .disconnect
  else if m = ['T', 'E', 'R', 'M', 'I', 'N', 'A', 'T', 'E'] then some .terminate
  else if m = ['T', 'I', 'C', 'K'] then some .tick
  else if m = ['S', 'T', 'E', 'P'] then some .step
  else none

/-- The operands after a mnemonic, as the step they make and the text after them (30_encoding.md R104, R105). -/
def readOperands (m cs : List Char) : Option (ScriptStep × List Char) :=
  match plainMnemonic m with
  | some i => some (.event i none, cs)
  | none =>
    if m = ['R', 'X'] then do
      let (b, cs) ← readByte cs
      let (smp, cs) ← readOptionalSample cs
      some (.event (.rx b) smp, cs)
    else if m = ['W', 'O', 'R', 'D'] then (readWord cs).map fun r => (.word r.1, r.2)
    else if m = ['T', 'X'] then do
      let (_, n, cs) ← readDigits 10 (skipSpaces cs)
      if n = 0 then none else some (.tx n, cs)
    else if m = ['C', 'Y', 'C', 'L', 'E'] then do
      let (b, cs) ← readByte cs
      let (smp, cs) ← readSample cs
      some (.cycle b smp, cs)
    else if m = ['P', 'R', 'E', 'S', 'S'] then (readSample cs).map fun r => (.press r.1, r.2)
    else if m = ['R', 'E', 'L', 'E', 'A', 'S', 'E'] then (readSample cs).map fun r => (.release r.1, r.2)
    else none

/-- One line (30_encoding.md R104): its comment dropped, no step when it is blank; `none` when it is no line of a script. -/
def readLine (line : List Char) : Option (List ScriptStep) :=
  let cs := skipSpaces (line.takeWhile fun c => c != ';')
  if cs.isEmpty then some []
  else
    let m := cs.takeWhile fun c => c.isUpper || c == '_'
    match readOperands m (cs.drop m.length) with
    | some (st, rest) => if (skipSpaces rest).isEmpty then some [st] else none
    | none => none

/-- The lines of a text. -/
def splitLines : List Char → List (List Char)
  | [] => [[]]
  | c :: cs =>
    if c = '\n' then [] :: splitLines cs
    else
      match splitLines cs with
      | [] => [[c]]
      | line :: lines => (c :: line) :: lines

/-- The steps of lines, in order; `none` when one of them is no line of a script. -/
def readLines : List (List Char) → Option (List ScriptStep)
  | [] => some []
  | line :: lines =>
    match readLine line, readLines lines with
    | some st, some sts => some (st ++ sts)
    | _, _ => none

/-- A script's text, read to its steps (30_encoding.md R104). -/
def readScript (text : List Char) : Option (List ScriptStep) := readLines (splitLines text)

end Sys2Proof.Machine
end

