-- ==== Sys2Proof/Tests/Slice0.lean ====
section
/-! SUPPORT. The model's own tests. Each docstring names the vector of 95_test_vectors.md, or the rule, that the expected result
comes from. -/

namespace Sys2Proof.Tests

open Sys2Proof Sys2Proof.Machine

/-! ## Helpers -/

/-- The vectors' parameters: RECONNECT_MAX = `r`, MON_ON_RESET = 0, FAIL_EXIT_CODE = 77. -/
def params (r : Fin 256) (arith : BarArith) : Params where
  reconnectMax := r
  failExitCode := 77
  monOnReset := false
  portPath := "port"
  baud := 9600
  barArith := arith

/-- The reset state with RECONNECT_MAX = 0 and BAR_ARITH = EXACT. -/
def base : State := State.resetWith (params 0 .exact)

/-- A state with an open request pending. -/
def connecting : State := { base with ls := .connecting }

/-- A state with the link open. -/
def linkOpen : State := { base with ls := .opened, handle := true }

/-- A state with a drain pending, asked for by DISCONNECT. -/
def draining : State := { linkOpen with ls := .draining }

/-- `s` once termination was recorded with the cause SIGNAL. -/
def ended (s : State) : State := { s with ending := true, cause := .signal }

/-- `s` with RECONNECT_MAX = `r`. -/
def retries (r : Fin 256) (s : State) : State := { s with params := params r .exact }

/-- A valid core with a rational value. -/
def core (q : Rat) : CoreReading := ⟨true, .rational q⟩

/-- An invalid core carrying a rational value. -/
def noCore (q : Rat) : CoreReading := ⟨false, .rational q⟩

/-- A sample of a core list and a rational memory fraction. -/
def sample (cores : List CoreReading) (mem : Rat) : Sample := ⟨cores, .rational mem⟩

/-- E1's sample. -/
def sampleE1 : Sample := sample [core (1 / 2), core 0, core 1, noCore 0] (1 / 4)

/-- E1's frame. -/
def frameE1 : List Byte := [0x85, 0x3F, 0x00, 0x7F, 0x00, 0x1F]

/-- Whether an outcome is the next state `t`. -/
def gives (o : Result) (t : State) : Bool :=
  match o with
  | .next u => decide (u = t)
  | _ => false

/-- `s` with FAULT = `f`. -/
def faulted (f : BitVec 3) (s : State) : State := { s with fault := f }

/-- The script lines that a text reads to, compared with the lines expected. -/
def reads (text : String) (script : List ScriptStep) : Bool := readScript text.toList == some script

/-! ## WellFormed: each check refuses an ill-formed term (30_encoding.md R100, R101, R104, R105) -/

theorem test_wellFormed_accepts :
    EventWord.wellFormed 0x1000 = true ∧ EventWord.wellFormed 0x40FF = true ∧ EventWord.wellFormed 0xB000 = true := by decide

theorem test_evLegal_refuses :
    EventWord.evLegal 0x0000 = false ∧ EventWord.evLegal 0xC000 = false ∧ EventWord.evLegal 0xD000 = false ∧
    EventWord.evLegal 0xE000 = false ∧ EventWord.evLegal 0xF000 = false ∧ EventWord.wellFormed 0xC000 = false := by decide

theorem test_rsvZero_refuses :
    EventWord.rsvZero 0x4100 = false ∧ EventWord.rsvZero 0xA800 = false ∧ EventWord.wellFormed 0x4100 = false := by decide

theorem test_dataAllowed_refuses :
    EventWord.dataAllowed 0x1001 = false ∧ EventWord.dataAllowed 0xB080 = false ∧ EventWord.wellFormed 0x1001 = false := by
  decide

theorem test_instr_wellFormed_refuses_step : Instr.wellFormed .step = false ∧ Instr.wellFormed (.rx 0xFF) = true := by decide

theorem test_scriptStep_wellFormed_refuses :
    ScriptStep.wellFormed (.tx 0) = false ∧ ScriptStep.wellFormed (.event .tick (some sampleE1)) = false ∧
    ScriptStep.wellFormed (.event (.rx 0) (some sampleE1)) = true := by decide

/-! ## Decode: words written out from 30_encoding.md R98 as EV, RSV, DATA -/

theorem test_decode_every_event :
    decode (0b0001#4 ++ 0b0000#4 ++ 0b00000000#8) = .ok .start ∧
    decode (0b0010#4 ++ 0b0000#4 ++ 0b00000000#8) = .ok .openOk ∧
    decode (0b0011#4 ++ 0b0000#4 ++ 0b00000000#8) = .ok .openFail ∧
    decode (0b0100#4 ++ 0b0000#4 ++ 0b10100101#8) = .ok (.rx 0xA5) ∧
    decode (0b0101#4 ++ 0b0000#4 ++ 0b00000000#8) = .ok .txTake ∧
    decode (0b0110#4 ++ 0b0000#4 ++ 0b00000000#8) = .ok .linkLost ∧
    decode (0b0111#4 ++ 0b0000#4 ++ 0b00000000#8) = .ok .drainDone ∧
    decode (0b1000#4 ++ 0b0000#4 ++ 0b00000000#8) = .ok .closeDone ∧
    decode (0b1001#4 ++ 0b0000#4 ++ 0b00000000#8) = .ok .disconnect ∧
    decode (0b1010#4 ++ 0b0000#4 ++ 0b00000000#8) = .ok .terminate ∧
    decode (0b1011#4 ++ 0b0000#4 ++ 0b00000000#8) = .ok .tick ∧
    decodeLabel (0b1111#4 ++ 0b0000#4 ++ 0b00000000#8) = .ok .step := by decide

/-- 95_test_vectors.md section 6. -/
theorem test_decode_section_6 :
    decode 0x4000 = .ok (.rx 0x00) ∧ decode 0x4001 = .ok (.rx 0x01) ∧ decode 0x40FF = .ok (.rx 0xFF) ∧
    decode 0x0000 = .error .reservedEvent ∧ decode 0x1001 = .error .dataNotZero ∧ decode 0x4100 = .error .reservedBits ∧
    decode 0xA800 = .error .reservedBits ∧ decode 0xC000 = .error .reservedEvent ∧ decode 0xD123 = .error .reservedBits ∧
    decode 0xE000 = .error .reservedEvent ∧ decode 0xF000 = .error .stepOnPort := by decide

theorem test_decodeTableWord :
    decodeTableWord 16 0x1000 = some .start ∧ decodeTableWord 16 0x40FF = some (.rx 0xFF) ∧
    decodeTableWord 16 0xF000 = some .step ∧ decodeTableWord 16 0xC000 = none ∧ decodeTableWord 24 0x11000 = none := by decide

/-! ## The frame encoder (95_test_vectors.md sections 1 to 3) -/

theorem test_frame_E1 :
    encodeFrame .exact sampleE1 = some frameE1 ∧ encodeFrame .binary64 sampleE1 = some frameE1 := by decide +kernel

/-- N1, N4, N6, N8. -/
theorem test_frame_small :
    encodeFrame .exact (sample [] 0) = some [0x81, 0x00] ∧
    encodeFrame .exact (sample [core (78 / 10000)] (78 / 10000)) = some [0x82, 0x00, 0x00] ∧
    encodeFrame .exact (sample [core (503937 / 1000000)] (64 / 127)) = some [0x82, 0x3F, 0x40] ∧
    encodeFrame .exact (sample [noCore (3 / 2)] (1 / 2)) = some [0x82, 0x00, 0x3F] := by decide +kernel

/-- N15: 40 cores, of which the last 9 are out of range and not read. -/
theorem test_frame_N15 :
    encodeFrame .exact (sample (List.replicate 31 (core 1) ++ List.replicate 9 (core 2)) (1 / 2)) =
      some (0xA0 :: (List.replicate 31 0x7F ++ [0x3F])) := by decide +kernel

/-- N16 to N19, and A5's NaN. -/
theorem test_frame_range :
    encodeFrame .exact (sample [core (3 / 2)] (1 / 2)) = none ∧ encodeFrame .exact (sample [core (1 / 2)] (-1 / 10)) = none ∧
    encodeFrame .exact (sample [core (-1 / 100)] (1 / 2)) = none ∧
    encodeFrame .exact (sample [core (1 / 2)] (10001 / 10000)) = none ∧
    encodeFrame .binary64 ⟨[⟨true, .binary64 0x7FF8000000000000⟩], .rational 0⟩ = none := by decide +kernel

/-- A1 to A3: the binary64 values nearest 1/127 and 2/127 under the two settings. -/
theorem test_frame_A3 :
    encodeFrame .exact ⟨[⟨true, .binary64 0x3F80204081020408⟩], .binary64 0x3F90204081020408⟩ = some [0x82, 0x00, 0x01] ∧
    encodeFrame .binary64 ⟨[⟨true, .binary64 0x3F80204081020408⟩], .binary64 0x3F90204081020408⟩ =
      some [0x82, 0x01, 0x02] := by decide +kernel

/-! ## The button decoder (95_test_vectors.md section 4) -/

/-- B1, B2, B5, B6, B7, B9: PREV_BUTTONS, the byte, MON_ON before; MON_ON after. -/
theorem test_monitor_edges :
    monitorAfter 0x00 0x01 false = true ∧ monitorAfter 0x01 0x00 true = false ∧ monitorAfter 0x01 0x01 false = false ∧
    monitorAfter 0x00 0xFE false = false ∧ monitorAfter 0xFE 0xFF false = true ∧ monitorAfter 0x03 0x02 true = false := by decide

/-! ## One step of each event (95_test_vectors.md sections 5, 7 and 8) -/

/-- L1, X3. -/
theorem test_start :
    gives (exec .start base) { connecting with out := [.reqOpen "port" 9600] } = true ∧
    gives (exec .start connecting) (faulted 0b010 connecting) = true := by decide

/-- L2, L3. -/
theorem test_openOk :
    gives (exec .openOk connecting) linkOpen = true ∧
    gives (exec .openOk (ended connecting)) { ended linkOpen with ls := .terminating } = true := by decide

/-- L4, L6. -/
theorem test_openFail_ends :
    gives (exec .openFail connecting)
      { connecting with ls := .terminating, ending := true, cause := .openFail, out := [.log .openFail] } = true ∧
    gives (exec .openFail (ended connecting))
      { ended connecting with ls := .terminating, out := [.log .openFail] } = true := by decide

/-- L5. -/
theorem test_openFail_retries :
    gives (exec .openFail (retries 2 connecting))
      { retries 2 connecting with retry := 1, out := [.log .openFail, .reqOpen "port" 9600] } = true := by decide

/-- L7. -/
theorem test_rx_cycle :
    gives (exec (.rx 0x01) { linkOpen with draw := sampleE1 })
      { linkOpen with draw := sampleE1, monOn := true, prevButtons := 0x01, txq := frameE1, out := [.frame frameE1] } = true := by
  decide +kernel

/-- L8, L9. -/
theorem test_rx_faults_or_ignored :
    gives (exec (.rx 0x01) { linkOpen with draw := sample [core (3 / 2)] 0 })
      { linkOpen with draw := sample [core (3 / 2)] 0, fault := 0b100 } = true ∧
    gives (exec (.rx 0x01) connecting) connecting = true := by decide +kernel

/-- L26, X7. -/
theorem test_txTake :
    gives (exec .txTake { linkOpen with txq := [0x85, 0x3F] }) { linkOpen with txq := [0x3F], out := [.wire 0x85] } = true ∧
    gives (exec .txTake linkOpen) (faulted 0b010 linkOpen) = true := by decide

/-- L10, L12. -/
theorem test_linkLost_ends :
    gives (exec .linkLost { linkOpen with txq := [0x1F] })
      { base with ls := .terminating, ending := true, cause := .linkLost, out := [.log .linkLost] } = true ∧
    gives (exec .linkLost (retries 1 draining))
      { retries 1 base with ls := .terminating, ending := true, cause := .linkLost, out := [.log .linkLost] } = true := by decide

/-- L11. -/
theorem test_linkLost_reconnects :
    gives (exec .linkLost (retries 1 linkOpen))
      { retries 1 connecting with retry := 1, out := [.log .linkLost, .reqOpen "port" 9600] } = true := by decide

/-- L14, L15. -/
theorem test_drainDone :
    gives (exec .drainDone draining) { draining with dsub := true, out := [.reqClose] } = true ∧
    gives (exec .drainDone { draining with txq := [0x3F] }) (faulted 0b010 { draining with txq := [0x3F] }) = true := by decide

/-- L16, L17. -/
theorem test_closeDone :
    gives (exec .closeDone { draining with dsub := true }) { base with ls := .closed } = true ∧
    gives (exec .closeDone { ended draining with dsub := true, cont := .exit })
      { ended base with ls := .terminating, cont := .exit } = true := by decide

/-- L13, X6. -/
theorem test_disconnect :
    gives (exec .disconnect linkOpen) { draining with out := [.reqDrain] } = true ∧
    gives (exec .disconnect draining) (faulted 0b010 draining) = true := by decide

/-- L18, L22. -/
theorem test_terminate_moves :
    gives (exec .terminate linkOpen) { ended linkOpen with ls := .terminating } = true ∧
    gives (exec .terminate { ended base with ls := .terminating }) { ended base with ls := .terminating } = true := by decide

/-- L19, L20. -/
theorem test_terminate_waits :
    gives (exec .terminate connecting) (ended connecting) = true ∧
    gives (exec .terminate draining) { ended draining with cont := .exit } = true := by decide

/-- T1, T2. -/
theorem test_tick :
    gives (exec .tick { base with monOn := true }) { base with monOn := true, out := [.cmdDisplayOn] } = true ∧
    gives (exec .tick base) { base with out := [.cmdDisplayOff] } = true := by decide

/-- L23. -/
theorem test_step_drains :
    gives (exec .step { ended linkOpen with ls := .terminating })
      { ended draining with cont := .exit, out := [.reqDrain] } = true := by decide

/-- L24, L25. -/
theorem test_step_exits :
    gives (exec .step { ended base with ls := .terminating })
      { ended base with ls := .exited, exitCode := some 0, out := [.exit 0] } = true ∧
    gives (exec .step { base with ls := .terminating, ending := true, cause := .linkLost })
      { base with ls := .exited, ending := true, cause := .linkLost, exitCode := some 77, out := [.exit 77] } = true := by decide

/-- X12: on the port, an illegal word sets bit 0 and keeps the earlier bit. -/
theorem test_port_illegal_word :
    gives (step { faulted 0b100 base with schedule := [.present 0x1001 (some sampleE1)] })
      { faulted 0b101 base with draw := sampleE1, stepIndex := 1 } = true := by decide +kernel

/-- L28: in EXITED a word changes nothing but the model's own fields. -/
theorem test_port_exited :
    gives (step { base with ls := .exited, schedule := [.present 0xC000 (some sampleE1)] })
      { base with ls := .exited, draw := sampleE1, stepIndex := 1 } = true := by decide +kernel

/-- 30_encoding.md R101: the word placed next is the event that the next step runs; STEP's label is BLOCK's own step. -/
theorem test_withFetchWord :
    (base.withFetchWord 16 0xF000).schedule = [.block] ∧
    (base.withFetchWord 16 0x4001).schedule = [.present 0x4001 none] := by decide

/-! ## The wire contract and scripts (42_framing.md R176, R178, 30_encoding.md R104 to R106) -/

theorem test_receiver :
    readFrames 2 (frameE1 ++ [0x81, 0x00]) = [frameE1, [0x81, 0x00]] ∧
    frameBars frameE1 = ([0x3F, 0x00, 0x7F, 0x00], some 0x1F) ∧
    resynchronise ([0x00, 0x1F] ++ frameE1) = frameE1 := by decide

/-- P1's third line, and its encoding. -/
theorem test_script_cycle :
    reads "CYCLE 0x00 \x7bcores=[0.5,-], mem=0.1\x7d            ; 0x4000 then 4 x 0x5000"
      [.cycle 0x00 (sample [core (1 / 2), noCore 0] (1 / 10))] = true ∧
    assemble [.cycle 0x00 (sample [core (1 / 2), noCore 0] (1 / 10))] = [0x4000, 0x5000, 0x5000, 0x5000, 0x5000] := by
  decide +kernel

/-- P5's lines: copies of a core, an empty core list, a raw word. -/
theorem test_script_forms :
    reads "RX 0xFE \x7bcores=[1.0 x31, -(1/127)], mem=0x1.0p-1\x7d\nWORD 0xC000\n\nTX 3 ; three\nSTEP\nRX 7"
      [.event (.rx 0xFE) (some (sample (List.replicate 31 (core 1) ++ [noCore (1 / 127)]) (1 / 2))), .word 0xC000, .tx 3,
        .event .step none, .event (.rx 7) none] = true ∧
    reads "TX 0" [] = false ∧ reads "RX 256" [] = false ∧ reads "start" [] = false ∧ reads "TICK 1" [] = false := by
  decide +kernel

/-! ## Witnesses: for each statement with hypotheses, a concrete state and operands that meet all of them together, for each of its
clauses; `given` is a state with something on the wire and in the queue. -/

/-- An open link on which E1's frame was written and its header sent. -/
def given : State :=
  { linkOpen with
    prevButtons := 0x01
    monOn := true
    txq := [0x3F, 0x00, 0x7F, 0x00, 0x1F]
    out := [.reqOpen "port" 9600, .frame frameE1, .wire 0x85] }

/-- A drain whose queue is empty: E1's whole frame was sent. -/
def flushed : State :=
  { draining with out := [.reqOpen "port" 9600, .frame frameE1] ++ frameE1.map .wire ++ [.reqDrain] }

/-- A termination with no link open. -/
def terminating : State := { ended base with ls := .terminating }

/-- A run that has ended. -/
def exited : State := { ended base with ls := .exited, exitCode := some 0, out := [.exit 0] }

/-- The states of the witnesses are states the block reaches, as far as 10_state.md R47 and 20_memory.md R78 say. -/
theorem test_witness_states :
    (RegisterInvariants given ∧ StreamInvariant given ∧ ExitLogged given) ∧
    (RegisterInvariants flushed ∧ StreamInvariant flushed) ∧ RegisterInvariants terminating ∧
    (RegisterInvariants exited ∧ ExitLogged exited) :=
  ⟨⟨by decide, by decide, by decide⟩, ⟨by decide, by decide⟩, by decide, by decide, by decide⟩

theorem test_witness_DecodeInvertsEncode : Instr.wellFormed (.rx 0xFF) = true ∧ decode 0x40FF = .ok (.rx 0xFF) := by decide

/-- One word of each of R100's kinds, at the ends of the reserved codes. -/
theorem test_witness_IllegalWordsRaiseEvIllegal :
    base.ls ≠ .exited ∧ EventWord.ev 0x0000 = 0x0 ∧ EventWord.ev 0xC000 = 0xC ∧ EventWord.ev 0xD000 = 0xD ∧
    EventWord.ev 0xE000 = 0xE ∧ EventWord.ev 0xF000 = 0xF ∧ EventWord.rsv 0xB100 ≠ 0 ∧ EventWord.rsv 0x4F00 ≠ 0 ∧
    (EventWord.ev 0x3001 ≠ 0x4 ∧ EventWord.data 0x3001 ≠ 0) ∧ (EventWord.ev 0x50FF ≠ 0x4 ∧ EventWord.data 0x50FF ≠ 0) := by
  decide

theorem test_witness_StepRunsTheDecodedEvent :
    base.schedule = [] ∧ ({ terminating with schedule := [.block] } : State).schedule = .block :: [] ∧
    (({ base with schedule := [.present 0x1000 none] } : State).schedule = .present 0x1000 none :: [] ∧
      decode 0x1000 = .ok .start) ∧
    (({ base with schedule := [.present 0xF000 none] } : State).schedule = .present 0xF000 none :: [] ∧
      decode 0xF000 = .error .stepOnPort ∧ base.ls ≠ .exited) ∧
    (({ exited with schedule := [.present 0x1000 none] } : State).schedule = .present 0x1000 none :: [] ∧
      exited.ls = .exited) := by decide

theorem test_witness_StartBeginsConnecting : base.ls = .disconnected ∧ (connecting.ls ≠ .disconnected ∧ connecting.ls ≠ .exited) := by
  decide

theorem test_witness_OpenOkOpensTheLink :
    (connecting.ls = .connecting ∧ connecting.ending = false) ∧
    ((ended connecting).ls = .connecting ∧ (ended connecting).ending = true) ∧ (base.ls ≠ .connecting ∧ base.ls ≠ .exited) := by
  decide

/-- At both sides of RETRY = RECONNECT_MAX, and at the greatest RECONNECT_MAX. -/
theorem test_witness_OpenFailRetriesOrTerminates :
    ((ended connecting).ls = .connecting ∧ (ended connecting).ending = true) ∧
    (let s : State := { retries 255 connecting with retry := 254 }
     s.ls = .connecting ∧ s.ending = false ∧ s.retry.toNat < s.params.reconnectMax.val) ∧
    (let s : State := { retries 255 connecting with retry := 255 }
     s.ls = .connecting ∧ s.ending = false ∧ ¬ s.retry.toNat < s.params.reconnectMax.val) ∧
    (base.ls ≠ .connecting ∧ base.ls ≠ .exited) := by decide

theorem test_witness_RxRunsOneCycle :
    (let s : State := { linkOpen with draw := sampleE1 }
     s.ls = .opened ∧ s.ending = false ∧ encodeFrame s.params.barArith s.draw = some frameE1) ∧
    (let s : State := { linkOpen with draw := sample [] 2 }
     s.ls = .opened ∧ s.ending = false ∧ encodeFrame s.params.barArith s.draw = none) ∧
    (draining.ls ≠ .opened ∨ draining.ending = true) ∧
    ((ended linkOpen).ls ≠ .opened ∨ (ended linkOpen).ending = true) := by decide +kernel

/-- At both sides of RETRY = RECONNECT_MAX. -/
theorem test_witness_LinkLostReconnectsOrTerminates :
    (let s : State := retries 1 linkOpen
     s.handle = true ∧ s.ls = .opened ∧ s.ending = false ∧ s.retry.toNat < s.params.reconnectMax.val) ∧
    (let s : State := { retries 1 linkOpen with retry := 1 }
     s.handle = true ∧ s.ls ≠ .exited ∧ s.ending = false ∧ (s.ls ≠ .opened ∨ ¬ s.retry.toNat < s.params.reconnectMax.val)) ∧
    (let s : State := retries 1 draining
     s.handle = true ∧ s.ls ≠ .exited ∧ s.ending = false ∧ (s.ls ≠ .opened ∨ ¬ s.retry.toNat < s.params.reconnectMax.val)) ∧
    ((ended draining).handle = true ∧ (ended draining).ls ≠ .exited ∧ (ended draining).ending = true) ∧
    (connecting.handle = false ∧ connecting.ls ≠ .exited) := by decide

theorem test_witness_DisconnectStartsTheDrain :
    (linkOpen.ls = .opened ∧ linkOpen.ending = false) ∧
    ((draining.ls ≠ .opened ∨ draining.ending = true) ∧ draining.ls ≠ .exited) ∧
    (((ended linkOpen).ls ≠ .opened ∨ (ended linkOpen).ending = true) ∧ (ended linkOpen).ls ≠ .exited) := by decide

theorem test_witness_DrainDoneRequestsTheClose :
    (draining.ls = .draining ∧ draining.dsub = false ∧ draining.txq = []) ∧
    ((given.ls ≠ .draining ∨ given.dsub = true ∨ given.txq ≠ []) ∧ given.ls ≠ .exited) ∧
    (let s : State := { draining with txq := [0x1F] }
     (s.ls ≠ .draining ∨ s.dsub = true ∨ s.txq ≠ []) ∧ s.ls ≠ .exited) := by decide

theorem test_witness_CloseDoneRunsTheContinuation :
    (let s : State := { draining with dsub := true }
     s.ls = .draining ∧ s.dsub = true ∧ s.cont = .none) ∧
    (let s : State := { ended draining with dsub := true, cont := .exit }
     s.ls = .draining ∧ s.dsub = true ∧ s.cont = .exit) ∧
    ((draining.ls ≠ .draining ∨ draining.dsub = false) ∧ draining.ls ≠ .exited) := by decide

theorem test_witness_TerminateRecordsTheSignal :
    terminating.ending = true ∧
    (base.ending = false ∧ (base.ls = .disconnected ∨ base.ls = .opened ∨ base.ls = .closed)) ∧
    (given.ending = false ∧ (given.ls = .disconnected ∨ given.ls = .opened ∨ given.ls = .closed)) ∧
    (connecting.ending = false ∧ connecting.ls = .connecting) ∧ (draining.ending = false ∧ draining.ls = .draining) := by decide

theorem test_witness_StepDrainsOrExits :
    (let s : State := { ended given with ls := .terminating }
     s.ls = .terminating ∧ s.handle = true) ∧
    (terminating.ls = .terminating ∧ terminating.handle = false ∧ terminating.cause = .signal) ∧
    (let s : State := { terminating with cause := .openFail }
     s.ls = .terminating ∧ s.handle = false ∧ (s.cause = .openFail ∨ s.cause = .linkLost)) ∧
    (let s : State := { terminating with cause := .linkLost }
     s.ls = .terminating ∧ s.handle = false ∧ (s.cause = .openFail ∨ s.cause = .linkLost)) := by decide

theorem test_witness_StepIsIdleOutsideTerminating : base.ls ≠ .terminating ∧ exited.ls ≠ .terminating := by decide

theorem test_witness_TxTakeSendsTheFirstByte :
    (given.ls ≠ .exited ∧ given.handle = true ∧ given.txq = 0x3F :: [0x00, 0x7F, 0x00, 0x1F]) ∧
    (linkOpen.ls ≠ .exited ∧ (linkOpen.handle = false ∨ linkOpen.txq = [])) ∧
    (base.ls ≠ .exited ∧ (base.handle = false ∨ base.txq = [])) ∧ exited.ls = .exited := by decide

theorem test_witness_TickForcesTheDisplay :
    (given.ls ≠ .exited ∧ given.monOn = true ∧ given.forcedOn = false) ∧
    (base.ls ≠ .exited ∧ base.monOn = false ∧ base.forcedOff = false) ∧
    (let s : State := { base with forcedOff := true }
     s.ls ≠ .exited ∧ ((s.monOn = true ∧ s.forcedOn = true) ∨ (s.monOn = false ∧ s.forcedOff = true))) ∧
    exited.ls = .exited := by decide

theorem test_witness_EveryTickReissuesTheCommand :
    let s : State := { given with schedule := List.replicate 3 (.present 0xB000 none) }
    s.ls ≠ .exited ∧ s.forcedOn = false ∧ s.forcedOff = false ∧ s.schedule = List.replicate 3 (.present 0xB000 none) := by decide

theorem test_witness_EveryTickEmitsOneCommand :
    (RegisterInvariants given ∧ given.ls ≠ .exited) ∧ (RegisterInvariants base ∧ base.ls ≠ .exited) :=
  ⟨⟨by decide, by decide⟩, by decide, by decide⟩

theorem test_witness_TickReadsNoLinkRegister :
    base.ls ≠ .exited ∧ draining.ls ≠ .exited ∧ base.monOn = draining.monOn ∧ base.forcedOn = draining.forcedOn ∧
    base.forcedOff = draining.forcedOff := by decide

theorem test_witness_ReservedButtonBitsDecideNothing :
    (given.prevButtons.getLsbD 0 = (0xFF : Byte).getLsbD 0 ∧ (0x00 : Byte).getLsbD 0 = (0xFE : Byte).getLsbD 0) ∧
    (given.prevButtons.getLsbD 0 = (0x01 : Byte).getLsbD 0 ∧ (0xFF : Byte).getLsbD 0 = (0x81 : Byte).getLsbD 0 ∧
      (0xFF : Byte).getLsbD 0 = given.prevButtons.getLsbD 0) := by decide

theorem test_witness_MonitorStateSurvivesLinkEvents :
    (∀ b, Instr.linkLost ≠ .rx b) ∧ ∃ t, exec .linkLost given = .next t := ⟨fun _ h => Instr.noConfusion h, _, rfl⟩

theorem test_witness_FrameLengthAndHeaderLaw :
    encodeFrame .exact (sample [] 0) = some [0x81, 0x00] ∧
    encodeFrame .binary64 (sample (List.replicate 32 (noCore 0)) 1) = some (0xA0 :: (List.replicate 31 0 ++ [0x7F])) := by
  decide +kernel

/-- At the first core and at the last one read, valid and invalid. -/
theorem test_witness_FrameBytesAreTheBars :
    let smp : Sample := sample (core 1 :: (List.replicate 29 (noCore 0) ++ [noCore 2, core 2])) 1
    encodeFrame .exact smp = some (0xA0 :: 0x7F :: (List.replicate 30 0 ++ [0x7F])) ∧
    smp.cores[0]? = some (core 1) ∧ (core 1).valid = true ∧ smp.cores[30]? = some (noCore 2) ∧ (noCore 2).valid = false ∧
    (core 1).value = .rational 1 ∧ smp.mem = .rational 1 := by decide +kernel

/-- Two samples that differ in an invalid core's value and in core 31. -/
theorem test_witness_UnreadCoresDoNotMatter :
    let smp : Sample := sample (noCore 0 :: List.replicate 30 (core 1) ++ [core 0]) 1
    let smp' : Sample := sample (noCore 5 :: List.replicate 30 (core 1) ++ [core 7]) 1
    min 31 smp.cores.length = min 31 smp'.cores.length ∧ smp.mem = smp'.mem ∧
    ∀ (i : Nat) (c c' : CoreReading), i < 31 → smp.cores[i]? = some c → smp'.cores[i]? = some c' →
      c.valid = c'.valid ∧ (c.valid = true → c.value = c'.value) := by
  refine ⟨by decide, by decide, fun i c c' hi hc hc' => ?_⟩
  rcases i with _ | i
  · simp only [sample, List.cons_append, List.getElem?_cons_zero, Option.some.injEq] at hc hc'
    subst hc hc'
    simp [noCore]
  · have hi : i < 30 := by omega
    have hget (x : CoreReading) : (List.replicate 30 (core 1) ++ [x])[i]? = some (core 1) := by
      rw [List.getElem?_append_left (by simpa using hi), List.getElem?_replicate, if_pos hi]
    simp only [sample, List.cons_append, List.getElem?_cons_succ, hget, Option.some.injEq] at hc hc'
    subst hc hc'
    simp

/-- A sample of rationals whose one valid core is above 1; the infinity and a NaN of binary64; an RX with a draw out of range. -/
theorem test_witness_InRangeIsRaisedExactly :
    ((sample [core 2, noCore 3] 0).mem = .rational 0 ∧
      ∀ (i : Nat) (c : CoreReading), i < 31 → (sample [core 2, noCore 3] 0).cores[i]? = some c → c.valid = true →
        ∃ x, c.value = .rational x) ∧
    (0x7FF0000000000000 : BitVec 64).extractLsb' 52 11 = 0x7FF ∧ (0xFFF8000000000000 : BitVec 64).extractLsb' 52 11 = 0x7FF ∧
    (let s : State := { linkOpen with draw := sample [core 2] 0 }
     s.ls = .opened ∧ s.ending = false ∧ encodeFrame s.params.barArith s.draw = none) := by
  refine ⟨⟨rfl, fun i c _ hc _ => ?_⟩, by decide, by decide, by decide, by decide, by decide +kernel⟩
  have hm := List.mem_of_getElem? hc
  simp only [sample, List.mem_cons, List.not_mem_nil, or_false] at hm
  rcases hm with rfl | rfl
  · exact ⟨2, rfl⟩
  · exact ⟨3, rfl⟩

theorem test_witness_ContractDrawsAreEncoded :
    sampleInContract .exact sampleE1 = true ∧ sampleInContract .binary64 sampleE1 = true := by decide +kernel

theorem test_witness_WarmUpFrameIsZeros :
    (∀ c ∈ (sample [noCore 0, noCore 2] (1 / 2)).cores, c.valid = false) ∧
    unitValue .exact (sample [noCore 0, noCore 2] (1 / 2)).mem = some (1 / 2) := by decide +kernel

/-- At 0, at 1 and at the last step below it. -/
theorem test_witness_ExactBarIsTheFloor :
    ((0 : Rat) ≤ 0 ∧ (0 : Rat) ≤ 1) ∧ ((0 : Rat) ≤ 1 ∧ (1 : Rat) ≤ 1) ∧ ((0 : Rat) ≤ 126 / 127 ∧ (126 / 127 : Rat) ≤ 1 ∧ 126 ≤ 126) := by
  decide +kernel

theorem test_witness_BarsAreMonotone : (0 : Rat) ≤ 0 ∧ (0 : Rat) ≤ 1 ∧ (1 : Rat) ≤ 1 := by decide +kernel

theorem test_witness_BarsFitSevenBits : (0 : Rat) ≤ 1 ∧ (1 : Rat) ≤ 1 := by decide +kernel

/-- The bounds of the significand and of the exponent, the ties at 0 and at the two ends of 53 bits, and words of each kind. -/
theorem test_witness_RoundingIsToTheNearestBinary64 :
    (Int.natAbs (-(2 ^ 53)) ≤ 2 ^ 53 ∧ (-1074 : Int) ≤ -1074) ∧
    (0 < 2 ^ 53 ∧ (-1074 : Int) ≤ -1074 ∧ (2 ^ 52 ≤ 0 ∨ (-1074 : Int) = -1074)) ∧
    (2 ^ 52 < 2 ^ 53 ∧ (-1074 : Int) ≤ 0 ∧ (2 ^ 52 ≤ 2 ^ 52 ∨ (0 : Int) = -1074)) ∧
    (2 ^ 53 - 1 < 2 ^ 53 ∧ (-1074 : Int) ≤ 0 ∧ (2 ^ 52 ≤ 2 ^ 53 - 1 ∨ (0 : Int) = -1074)) ∧
    ((0x7FF0000000000000 : BitVec 64).extractLsb' 52 11).toNat = 2047 ∧
    ((0x8000000000000001 : BitVec 64).extractLsb' 52 11).toNat = 0 ∧
    (((0x3FF0000000000000 : BitVec 64).extractLsb' 52 11).toNat ≠ 0 ∧
      ((0x3FF0000000000000 : BitVec 64).extractLsb' 52 11).toNat ≠ 2047) := by decide +kernel

theorem test_witness_OnlyHeadersHaveBitSeven :
    encodeFrame .exact sampleE1 = some frameE1 ∧ frameE1[0]? = some 0x85 ∧ frameE1[5]? = some 0x1F := by decide +kernel

theorem test_witness_ReceiverRecoversTheFrames :
    ∀ f ∈ [frameE1, frameE1], ∃ arith smp, encodeFrame arith smp = some f := by
  have h : encodeFrame .exact sampleE1 = some frameE1 := by decide +kernel
  intro f hf
  simp only [List.mem_cons, List.not_mem_nil, or_false, or_self] at hf
  exact hf ▸ ⟨_, _, h⟩

theorem test_witness_ReceiverFindsTheNextFrame :
    encodeFrame .exact sampleE1 = some frameE1 ∧ ∀ b ∈ ([0x00, 0x7F] : List Byte), b.toNat < 128 := by decide +kernel

theorem test_witness_StepsKeepTheStreamInOrder :
    let s : State := { given with schedule := [.present 0x5000 none] }
    RegisterInvariants s ∧ StreamInvariant s ∧ ∃ t, step s = .next t := ⟨by decide, by decide, _, rfl⟩

theorem test_witness_OnlyCyclesWriteFrames : ∃ t, exec .txTake given = .next t := ⟨_, rfl⟩

theorem test_witness_NoFrameAfterEnding :
    let s : State := { ended given with ls := .terminating, schedule := [.present 0x4001 none] }
    s.ending = true ∧ ∃ t, step s = .next t := ⟨rfl, _, rfl⟩

theorem test_witness_CloseFollowsTheFlush :
    RegisterInvariants flushed ∧ StreamInvariant flushed ∧ ∃ t, exec .drainDone flushed = .next t ∧ t.out ≠ flushed.out :=
  ⟨by decide, by decide, _, rfl, by decide⟩

theorem test_witness_FaultedEventsChangeOnlyFault : ∃ t, exec .openOk base = .next t ∧ t.fault ≠ base.fault :=
  ⟨_, rfl, by decide⟩

theorem test_witness_ContextFaultsExactlyOutsideTheTable :
    (Instr.wellFormed .start = true ∧ given.ls ≠ .exited ∧ admits .start given = false) ∧
    (Instr.wellFormed .txTake = true ∧ given.ls ≠ .exited ∧ admits .txTake given = true) := by decide

/-- One event after a START; and a run of an RX, a TX_TAKE, a TICK, a TERMINATE and the STEP that follows. -/
theorem test_witness_DutifulEnvironmentNeverFaults :
    (let s : State := { given with draw := sampleE1 }
     RegisterInvariants s ∧ (Instr.agent (.rx 0) ≠ .host ∨ Instr.rx 0 = .terminate) ∧
     dutyAllows [.present 0x1000 none] (.rx 0) s = true ∧ drawKeepsContract (.rx 0) s.draw s = true ∧
     ∃ t, exec (.rx 0) s = .next t) ∧
    (let s : State :=
      { given with
        schedule := [.present 0x4000 (some sampleE1), .present 0x5000 none, .present 0xB000 none, .present 0xA000 none, .block] }
     RegisterInvariants s ∧ keepsDuties [.present 0x1000 none] s.schedule s = true ∧
     ∀ w smp, Stimulus.present w smp ∈ s.schedule → w ≠ 0x1000 ∧ w ≠ 0x9000) := by
  refine ⟨⟨by decide, by decide, by decide, by decide +kernel, _, rfl⟩, by decide, by decide +kernel, fun w smp h => ?_⟩
  simp only [List.mem_cons, Stimulus.present.injEq, reduceCtorEq, List.not_mem_nil, or_false] at h
  rcases h with h | h | h | h <;> rw [h.1] <;> decide

/-- 60_exceptions.md R242: HOST presents START once, and nothing after EXIT. -/
theorem test_host_duties :
    dutyAllows [] .start base = true ∧ dutyAllows [.present 0x2000 none, .present 0x1000 none] .start base = false ∧
    dutyAllows [] .start exited = false ∧ dutyAllows [] .disconnect exited = false ∧ dutyAllows [] .terminate exited = false := by
  decide

theorem test_witness_StepsKeepTheRegisterInvariants :
    let s : State := { given with schedule := [.present 0x6000 none] }
    RegisterInvariants s ∧ ∃ t, step s = .next t := ⟨by decide, _, rfl⟩

theorem test_witness_LinkStateFollowsTheTable :
    RegisterInvariants given ∧ ∃ t, exec .disconnect given = .next t := ⟨by decide, _, rfl⟩

theorem test_witness_TerminationNeverReturns :
    let s : State := { terminating with schedule := [.block] }
    RegisterInvariants s ∧ s.ending = true ∧ (∃ t, step s = .next t) ∧ s.ls = .terminating := ⟨by decide, rfl, ⟨_, rfl⟩, rfl⟩

theorem test_witness_ExitedIsFinal : exited.ls = .exited := by decide

theorem test_witness_NoReconnectByDefault :
    (connecting.params.reconnectMax = 0 ∧ connecting.ls = .connecting ∧ connecting.retry = 0 ∧
      ∃ t, exec .openFail connecting = .next t) ∧
    (given.params.reconnectMax = 0 ∧ given.handle = true ∧ given.ls ≠ .exited ∧ ∃ t, exec .linkLost given = .next t) :=
  ⟨⟨rfl, rfl, rfl, _, rfl⟩, rfl, rfl, by decide, _, rfl⟩

theorem test_witness_LogRecordsExactly :
    (∃ t, exec .openFail connecting = .next t) ∧ ∃ t, exec .linkLost given = .next t := ⟨⟨_, rfl⟩, _, rfl⟩

theorem test_witness_EndingComesBeforeTheDrain :
    (let s : State := { ended given with ls := .terminating }
     RegisterInvariants s ∧ s.ending = true ∧ ∃ t, exec .step s = .next t ∧ t.out = s.out ++ [.reqDrain]) :=
  ⟨by decide, rfl, _, rfl, rfl⟩

theorem test_witness_NoDrainWithoutALink :
    (NoLink connecting ∧ (∃ t, exec .openFail connecting = .next t) ∧
      ¬ (Instr.openFail = .openOk ∧ connecting.ls = .connecting)) ∧
    (NoLink terminating ∧ terminating.ls ∈ [.terminating, .exited]) ∧
    (RegisterInvariants given ∧ given.handle = true ∧ ∃ t, exec .linkLost given = .next t ∧ t.ls ≠ .connecting) :=
  ⟨⟨by decide, ⟨_, rfl⟩, by decide⟩, by decide, by decide, rfl, _, rfl, by decide⟩

theorem test_witness_ExitIsEmittedOnce :
    let s : State := { terminating with schedule := [.block] }
    RegisterInvariants s ∧ ExitLogged s ∧ ∃ t, step s = .next t := ⟨by decide, by decide, _, rfl⟩

theorem test_witness_ParametersAreFixed :
    (∃ t, step { given with schedule := [.present 0xB000 none] } = .next t) ∧ ∃ t, exec .tick given = .next t :=
  ⟨⟨_, rfl⟩, _, rfl⟩

/-- With five bytes queued, and with none. -/
theorem test_witness_GracefulTerminationExits :
    (let s : State :=
      { given with
        schedule :=
          [.present 0xA000 none, .block] ++ List.replicate given.txq.length (.present 0x5000 none) ++
            [.present 0x7000 none, .present 0x8000 none, .block] }
     RegisterInvariants s ∧ s.ls = .opened) ∧
    (let s : State :=
      { linkOpen with
        schedule := [.present 0xA000 none, .block, .present 0x7000 none, .present 0x8000 none, .block] }
     RegisterInvariants s ∧ s.ls = .opened ∧ s.txq.length = 0) :=
  ⟨⟨by decide, rfl⟩, by decide, rfl, rfl⟩

theorem test_witness_OpenFailureExitsWithoutDrain :
    let s : State := { retries 255 connecting with retry := 255, schedule := [.present 0x3000 none, .block] }
    RegisterInvariants s ∧ s.ls = .connecting ∧ s.ending = false ∧ s.retry.toNat = s.params.reconnectMax.val := by decide

theorem test_witness_CycleScriptSendsItsFrame :
    linkOpen.ls = .opened ∧ linkOpen.ending = false ∧ linkOpen.handle = true ∧ linkOpen.txq = [] ∧
    encodeFrame linkOpen.params.barArith sampleE1 = some frameE1 := by decide +kernel

end Sys2Proof.Tests
end

section
/-! The range contract of 00_scope.md R9 and the frame it secures. -/

namespace Sys2Proof.Machine

/-- Only a valid core whose value fails the range check of 40_encoder.md R136 has no bar. -/
theorem coreBar_eq_none_iff (arith : BarArith) (c : CoreReading) :
    coreBar arith c = none ↔ c.valid = true ∧ unitValue arith c.value = none := by
  cases hv : c.valid with
  | false => simp [coreBar_of_invalid arith c hv]
  | true => simp [coreBar_of_valid arith c hv, barOf_eq_none_iff]

theorem mem_cores_of_mem_keptCores {smp : Sample} {c : CoreReading} (h : c ∈ keptCores smp) : c ∈ smp.cores :=
  List.mem_of_mem_take h

/-- The contract of 00_scope.md R9, in the words of ENCODE's range check. -/
theorem sampleInContract_iff (arith : BarArith) (smp : Sample) :
    sampleInContract arith smp = true ↔
      (∀ c ∈ smp.cores, c.valid = true → unitValue arith c.value ≠ none) ∧ unitValue arith smp.mem ≠ none := by
  simp [sampleInContract, Option.isSome_iff_ne_none, imp_iff_not_or]

/-- The range check of 40_encoder.md R136 cannot fail on a draw within the contract: it reads valid cores and the memory
fraction only. -/
theorem encodeFrame_ne_none_of_sampleInContract {arith : BarArith} {smp : Sample} (h : sampleInContract arith smp = true) :
    encodeFrame arith smp ≠ none := by
  obtain ⟨hcores, hmem⟩ := (sampleInContract_iff arith smp).1 h
  rw [ne_eq, encodeFrame_eq_none_iff]
  rintro (⟨c, hkept, hbar⟩ | hbar)
  · obtain ⟨hvalid, hout⟩ := (coreBar_eq_none_iff arith c).1 hbar
    exact hcores c (mem_cores_of_mem_keptCores hkept) hvalid hout
  · exact hmem ((barOf_eq_none_iff arith smp.mem).1 hbar)

/-- Settles O30: ENCODE gives no frame only on a range fault, which the contract excludes. -/
theorem contractDrawsAreEncoded : Obligations.ContractDrawsAreEncoded := by
  intro arith smp h
  exact Option.ne_none_iff_exists'.1 (encodeFrame_ne_none_of_sampleInContract h)

end Sys2Proof.Machine
end

section
/-! The registers' invariants (10_state.md R47): what they say in each link state, that they hold after reset, and that every step
keeps them. -/

namespace Sys2Proof.Machine

/-- What a step keeps: enough that taking a stimulus, refusing a word, and every case of an event keep it. -/
theorem step_keeps {P : State → Prop} (htake : ∀ stim rest s, P s → P (takeStimulus stim rest s))
    (hillegal : ∀ s, P s → P (raiseFault .evIllegal s)) (hevent : ∀ {i s t}, EventCase i s t → P s → P t) {s t : State}
    (hs : P s) (h : step s = .next t) : P t := by
  rcases step_eventCase h with ⟨-, rfl⟩ | ⟨stim, rest, -, ⟨-, rfl⟩ | ⟨-, rfl⟩ | ⟨-, i, hcase⟩⟩
  · exact hs
  · exact htake stim rest s hs
  · exact hillegal _ (htake stim rest s hs)
  · exact hevent hcase (htake stim rest s hs)

/-- The invariants that no link state bears on: R47.8 and R47.10. -/
def SteadyRegisters (s : State) : Prop := OneShotsClear s ∧ RetryBounded s

/-- What the invariants of R47 come to in each link state: the values of ENDING, CAUSE, HANDLE, CONT, TXQ and EXIT_CODE that go
with it (DSUB's too, while a close is pending). -/
def LinkRegistersFit (s : State) : LinkState → Prop
  | .disconnected | .closed =>
    s.ending = false ∧ s.cause = .none ∧ s.handle = false ∧ s.cont ≠ .exit ∧ s.txq = [] ∧ s.exitCode = none
  | .connecting =>
    (s.cause = .none ↔ s.ending = false) ∧ s.handle = false ∧ (s.cont = .exit → s.ending = true) ∧ s.txq = [] ∧
      s.exitCode = none
  | .opened => s.ending = false ∧ s.cause = .none ∧ s.handle = true ∧ s.cont ≠ .exit ∧ s.exitCode = none
  | .draining =>
    (s.cause = .none ↔ s.ending = false) ∧ s.handle = true ∧ (s.cont = .exit ↔ s.ending = true) ∧
      (s.dsub = true → s.txq = []) ∧ s.exitCode = none
  | .terminating => s.ending = true ∧ s.cause ≠ .none ∧ (s.txq ≠ [] → s.handle = true) ∧ s.exitCode = none
  | .exited => s.ending = true ∧ s.cause ≠ .none ∧ s.handle = false ∧ s.txq = [] ∧ s.exitCode ≠ none

/-- R47, read off one link state at a time. -/
theorem registerInvariants_iff {s : State} {l : LinkState} (hl : s.ls = l) :
    RegisterInvariants s ↔ SteadyRegisters s ∧ LinkRegistersFit s l := by
  cases l <;> grind [SteadyRegisters, LinkRegistersFit]

theorem RegisterInvariants.steady {s : State} (hs : RegisterInvariants s) : SteadyRegisters s :=
  ((registerInvariants_iff rfl).1 hs).1

/-- The way every move between two link states keeps the invariants: the new link state's registers come from the old one's. -/
theorem RegisterInvariants.of_move {s t : State} {l l' : LinkState} (hs : RegisterInvariants s) (hl : s.ls = l) (hl' : t.ls = l')
    (hsteady : SteadyRegisters s → SteadyRegisters t) (hfit : LinkRegistersFit s l → LinkRegistersFit t l') :
    RegisterInvariants t := by
  obtain ⟨hs₁, hs₂⟩ := (registerInvariants_iff hl).1 hs
  exact (registerInvariants_iff hl').2 ⟨hsteady hs₁, hfit hs₂⟩

theorem RegisterInvariants.cause_ne_none {s : State} (hs : RegisterInvariants s) (he : s.ending = true) : s.cause ≠ .none := by
  obtain ⟨-, hcause, -⟩ := hs
  simp [hcause, he]

theorem RegisterInvariants.exitCode_eq_none {s : State} (hs : RegisterInvariants s) (hx : s.ls ≠ .exited) :
    s.exitCode = none := by
  obtain ⟨-, -, -, -, -, -, -, hexit, -⟩ := hs
  exact hexit.2 hx

theorem RegisterInvariants.queueNeedsHandle {s : State} (hs : RegisterInvariants s) : QueueNeedsHandle s := by
  obtain ⟨-, -, -, hqueue, -⟩ := hs
  exact hqueue

/-- TICK's last write (41_decoder.md R155) finds the one-shot flags as R47.8 has them. -/
theorem RegisterInvariants.clearOneShots {s : State} (hs : RegisterInvariants s) :
    RegisterInvariants { s with forcedOn := false, forcedOff := false } := by
  obtain ⟨hending, hcause, hhandle, hqueue, hcont, hclose, -, hexit, hretry⟩ := hs
  exact ⟨hending, hcause, hhandle, hqueue, hcont, hclose, ⟨rfl, rfl⟩, hexit, hretry⟩

/-- Termination may begin wherever the run has not ended and the queue belongs to an open link: R47 asks no more of TERMINATING. -/
theorem registerInvariants_enterTermination {c : Cause} {s : State} (hc : c ≠ .none) (hsteady : SteadyRegisters s)
    (hcause : s.ending = true → s.cause ≠ .none) (hqueue : s.txq ≠ [] → s.handle = true) (hexit : s.exitCode = none) :
    RegisterInvariants (enterTermination c s) := by
  refine (registerInvariants_iff rfl).2 ⟨hsteady, rfl, ?_, hqueue, hexit⟩
  cases he : s.ending <;> simp [he, hc, hcause]

/-- A reconnect is attempted below RECONNECT_MAX only, so RETRY + 1 neither wraps nor passes it. -/
theorem steadyRegisters_retryOpen {s : State} (hsteady : SteadyRegisters s)
    (hr : s.retry.toNat < s.params.reconnectMax.val) : SteadyRegisters (retryOpen s) := by
  obtain ⟨hshots, -⟩ := hsteady
  refine ⟨hshots, ?_⟩
  have hmax := s.params.reconnectMax.isLt
  have hfits : s.retry.toNat + 1 < 2 ^ 8 := by omega
  have hinc : (s.retry + 1).toNat = s.retry.toNat + 1 := BitVec.toNat_add_of_lt hfits
  rw [RetryBounded, retryOpen_retry, hinc]
  exact hr

/-- Every event keeps the registers' invariants. -/
theorem EventCase.keeps_registerInvariants {i : Instr} {s t : State} (h : EventCase i s t) (hs : RegisterInvariants s) :
    RegisterInvariants t := by
  cases h with
  | exited | context | rxInRange | rxIgnored | terminateAgain | stepIdle => exact hs
  | tickOff | tickOn | tickForced => exact hs.clearOneShots
  | start _ hl =>
    refine hs.of_move hl rfl id fun ⟨hending, hcause, hhandle, hcont, hqueue, hexit⟩ => ?_
    exact ⟨iff_of_true hcause hending, hhandle, fun h => absurd h hcont, hqueue, hexit⟩
  | openOkEnding _ hl he =>
    refine hs.of_move hl rfl (fun ⟨hshots, _⟩ => ⟨hshots, Nat.zero_le _⟩) fun ⟨hcause, _, _, _, hexit⟩ => ?_
    exact ⟨he, by simp [hcause, he], fun _ => rfl, hexit⟩
  | openOk _ hl he =>
    refine hs.of_move hl rfl (fun ⟨hshots, _⟩ => ⟨hshots, Nat.zero_le _⟩) fun ⟨hcause, _, hcont, _, hexit⟩ => ?_
    exact ⟨he, hcause.2 he, rfl, by simpa [he] using hcont, hexit⟩
  | openFailRetry _ hl _ hr => exact hs.of_move hl rfl (steadyRegisters_retryOpen · hr) id
  | openFailFatal _ hl =>
    exact registerInvariants_enterTermination (by simp) hs.steady hs.cause_ne_none hs.queueNeedsHandle
      (hs.exitCode_eq_none (by simp [hl]))
  | rxCycle _ _ _ hl => exact hs.of_move hl hl id id
  | txTake _ _ _ _ hh hq =>
    obtain ⟨hending, hcause, hhandle, -, hcont, hclose, hshots, hexit, hretry⟩ := hs
    refine ⟨hending, hcause, hhandle, fun _ => hh, hcont, fun hl hd => ?_, hshots, hexit, hretry⟩
    exact absurd (hclose hl hd) (by simp [hq])
  | linkLostRetry _ _ hl he hr =>
    refine hs.of_move hl rfl (steadyRegisters_retryOpen (s := dropLink _) · hr) fun ⟨_, hcause, _, hcont, hexit⟩ => ?_
    exact ⟨iff_of_true hcause he, rfl, fun h => absurd h hcont, rfl, hexit⟩
  | linkLostFatal _ hx =>
    exact registerInvariants_enterTermination (by simp) hs.steady hs.cause_ne_none (by simp) (hs.exitCode_eq_none hx)
  | drainDone _ hl _ hq =>
    refine hs.of_move hl hl id fun ⟨hcause, hhandle, hcont, _, hexit⟩ => ?_
    exact ⟨hcause, hhandle, hcont, fun _ => hq, hexit⟩
  | closeDoneExit _ hl hd hc =>
    refine hs.of_move hl rfl id fun ⟨hcause, _, hcont, hclose, hexit⟩ => ?_
    have he := hcont.1 hc
    exact ⟨he, by simp [hcause, he], fun h => absurd (hclose hd) h, hexit⟩
  | closeDoneNone _ hl hd hc =>
    refine hs.of_move hl rfl id fun ⟨hcause, _, hcont, hclose, hexit⟩ => ?_
    have he : s.ending = false := by simpa [hc] using hcont
    exact ⟨he, hcause.2 he, rfl, by simp [hc], hclose hd, hexit⟩
  | disconnect _ hl he =>
    refine hs.of_move hl rfl id fun ⟨_, hcause, hhandle, _, hexit⟩ => ?_
    exact ⟨iff_of_true hcause he, hhandle, by simp [he], by simp, hexit⟩
  | terminateAtOnce _ _ hl =>
    refine registerInvariants_enterTermination (by simp) hs.steady hs.cause_ne_none hs.queueNeedsHandle
      (hs.exitCode_eq_none ?_)
    rcases hl with hl | hl | hl <;> simp [hl]
  | terminateLater _ he hl =>
    rcases hl with hl | hl
    · refine hs.of_move hl hl id fun ⟨_, hhandle, _, hqueue, hexit⟩ => ?_
      exact ⟨by simp [he], hhandle, fun _ => rfl, hqueue, hexit⟩
    · exact hs.of_move hl hl id fun ⟨hending, _⟩ => by simp [he] at hending
  | terminateDraining _ he hl =>
    refine hs.of_move hl hl id fun ⟨_, hhandle, _, hclose, hexit⟩ => ?_
    exact ⟨by simp [he], hhandle, by simp, hclose, hexit⟩
  | stepDrain _ hl hh =>
    refine hs.of_move hl rfl id fun ⟨hending, hcause, _, hexit⟩ => ?_
    exact ⟨by simp [hending, hcause], hh, iff_of_true rfl hending, by simp, hexit⟩
  | stepExit _ hl hh =>
    refine hs.of_move hl rfl id fun ⟨hending, hcause, hqueue, _⟩ => ?_
    exact ⟨hending, hcause, hh, by simpa [hh] using hqueue, by simp⟩

/-- Settles O48: the cases of R190's table, one event at a time. -/
theorem stepsKeepTheRegisterInvariants : Obligations.StepsKeepTheRegisterInvariants := fun _ _ hs h =>
  step_keeps (fun _ _ _ => id) (fun _ => id) (fun hcase hs => hcase.keeps_registerInvariants hs) hs h

/-- Settles O6: after reset LS is DISCONNECTED, whose registers have their reset values, and OUT is empty. -/
theorem invariantsHoldAtReset : Obligations.InvariantsHoldAtReset := by
  intro p
  have hsteady : SteadyRegisters (State.resetWith p) := ⟨⟨rfl, rfl⟩, Nat.zero_le _⟩
  have hfit : LinkRegistersFit (State.resetWith p) .disconnected := ⟨rfl, rfl, rfl, by simp [State.resetWith], rfl, rfl⟩
  have hstream : StreamInvariant (State.resetWith p) :=
    ⟨by simp [State.resetWith], List.nil_prefix, fun _ => rfl, fun _ => rfl⟩
  exact ⟨(registerInvariants_iff rfl).2 ⟨hsteady, hfit⟩, hstream, rfl⟩

end Sys2Proof.Machine
end

section
/-! EXIT is logged where EXIT_CODE is written (43_link.md R201), and nowhere else. -/

namespace Sys2Proof.Machine

/-- Only the STEP that exits writes EXIT_CODE or emits EXIT. -/
theorem EventCase.exit_or_keeps {i : Instr} {s t : State} (h : EventCase i s t) :
    (s.ls = .terminating ∧ ∃ code, t.exitCode = some code ∧ exitsOf t.out = exitsOf s.out ++ [code]) ∨
      (t.exitCode = s.exitCode ∧ exitsOf t.out = exitsOf s.out) := by
  cases h with
  | stepExit _ hl => exact .inl ⟨hl, exitCodeOf s.params.failExitCode s.cause, rfl, by simp [exitProcess, exitsOf_append]⟩
  | _ => exact .inr ⟨rfl, by simp [exitsOf_append, exitsOf_pair]⟩

/-- The STEP that exits finds EXIT_CODE none (R47.9), so it logs the first EXIT. -/
theorem EventCase.keeps_exitLogged {i : Instr} {s t : State} (h : EventCase i s t) (hs : RegisterInvariants s)
    (hlogged : ExitLogged s) : ExitLogged t := by
  rcases h.exit_or_keeps with ⟨hl, code, hcode, hout⟩ | ⟨hcode, hout⟩
  · rw [ExitLogged, hout, hlogged, hs.exitCode_eq_none (by simp [hl]), hcode]
    rfl
  · rw [ExitLogged, hout, hlogged, hcode]

/-- Settles O56: the registers' invariants and the log of the exit are kept together. -/
theorem exitIsEmittedOnce : Obligations.ExitIsEmittedOnce := by
  intro s t hs hlogged h
  have hkept : RegisterInvariants t ∧ ExitLogged t :=
    step_keeps (P := fun s => RegisterInvariants s ∧ ExitLogged s) (fun _ _ _ => id) (fun _ => id)
      (fun hcase ⟨hs, hlogged⟩ => ⟨hcase.keeps_registerInvariants hs, hcase.keeps_exitLogged hs hlogged⟩) ⟨hs, hlogged⟩ h
  exact hkept.2

end Sys2Proof.Machine
end

section
/-! The two registers that are written and never read: FAULT (10_state.md R42) and OUT (R44). A rule that reads neither is shown
so part by part: its straight-line pieces, its guards, and their composition. -/

namespace Sys2Proof.Machine

/-- `s` with FAULT = `f` and OUT = `log`. -/
def State.withLogs (s : State) (f : BitVec 3) (log : List Action) : State := { s with fault := f, out := log }

@[simp] theorem State.withLogs_ls (s : State) (f : BitVec 3) (log : List Action) : (s.withLogs f log).ls = s.ls := rfl
@[simp] theorem State.withLogs_txq (s : State) (f : BitVec 3) (log : List Action) : (s.withLogs f log).txq = s.txq := rfl
@[simp] theorem State.withLogs_params (s : State) (f : BitVec 3) (log : List Action) : (s.withLogs f log).params = s.params := rfl
@[simp] theorem State.withLogs_draw (s : State) (f : BitVec 3) (log : List Action) : (s.withLogs f log).draw = s.draw := rfl

/-- A rule reads neither FAULT nor OUT: whatever they hold, it sets the same bits, appends the same actions, and leaves the other
registers the same. -/
def ReadsNoLog (rule : State → State) : Prop :=
  ∀ s : State, ∃ (bits : BitVec 3) (actions : List Action), ∀ f log,
    rule (s.withLogs f log) = (rule s).withLogs (f ||| bits) (log ++ actions)

namespace ReadsNoLog

/-- A piece that writes neither log. -/
theorem of_untouched {rule : State → State}
    (h : ∀ (s : State) f log, rule (s.withLogs f log) = (rule s).withLogs f log := by exact fun _ _ _ => rfl) :
    ReadsNoLog rule := fun s => ⟨0, [], fun f log => by simp [h]⟩

/-- A piece that emits actions. -/
theorem of_appends {rule : State → State} (actions : State → List Action)
    (h : ∀ (s : State) f log, rule (s.withLogs f log) = (rule s).withLogs f (log ++ actions s) := by exact fun _ _ _ => rfl) :
    ReadsNoLog rule := fun s => ⟨0, actions s, fun f log => by simp [h]⟩

theorem raiseFault (c : FaultCode) : ReadsNoLog (raiseFault c) :=
  fun _ => ⟨faultWeight c, [], fun _ _ => by simp [Machine.raiseFault, State.withLogs]⟩

theorem nothing : ReadsNoLog fun s => s := of_untouched

theorem comp {r₁ r₂ : State → State} (h₂ : ReadsNoLog r₂) (h₁ : ReadsNoLog r₁) : ReadsNoLog fun s => r₂ (r₁ s) := by
  intro s
  obtain ⟨bits₁, actions₁, h₁⟩ := h₁ s
  obtain ⟨bits₂, actions₂, h₂⟩ := h₂ (r₁ s)
  exact ⟨bits₁ ||| bits₂, actions₁ ++ actions₂, fun f log => by simp only [h₁, h₂, BitVec.or_assoc, List.append_assoc]⟩

/-- A rule that, in each state, does what some blind rule does there, whatever the logs hold, is blind to them too. -/
theorem of_branch {rule : State → State}
    (h : ∀ s : State, ∃ branch, ReadsNoLog branch ∧ ∀ f log, rule (s.withLogs f log) = branch (s.withLogs f log)) :
    ReadsNoLog rule := by
  intro s
  obtain ⟨branch, hblind, hbranch⟩ := h s
  obtain ⟨bits, actions, hactions⟩ := hblind s
  have hs : rule s = branch s := hbranch s.fault s.out
  exact ⟨bits, actions, fun f log => by rw [hbranch, hactions, hs]⟩

/-- A choice by a guard that the logs do not decide. -/
theorem ite {guard : State → Prop} [DecidablePred guard] {r₁ r₂ : State → State} (h₁ : ReadsNoLog r₁) (h₂ : ReadsNoLog r₂)
    (hguard : ∀ (s : State) f log, guard (s.withLogs f log) ↔ guard s := by exact fun _ _ _ => .rfl) :
    ReadsNoLog fun s => if guard s then r₁ s else r₂ s := by
  refine of_branch fun s => ?_
  by_cases hg : guard s
  · exact ⟨r₁, h₁, fun f log => if_pos ((hguard s f log).2 hg)⟩
  · exact ⟨r₂, h₂, fun f log => if_neg (mt (hguard s f log).1 hg)⟩

end ReadsNoLog

theorem emit_readsNoLog (a : Action) : ReadsNoLog (emit a) := .of_appends fun _ => [a]

theorem requestOpen_readsNoLog : ReadsNoLog requestOpen :=
  .of_appends fun s => [.reqOpen s.params.portPath s.params.baud]

theorem retryOpen_readsNoLog : ReadsNoLog retryOpen := requestOpen_readsNoLog.comp .of_untouched

theorem recordCause_readsNoLog (c : Cause) : ReadsNoLog (recordCause c) := .of_untouched

theorem enterTermination_readsNoLog (c : Cause) : ReadsNoLog (enterTermination c) := .of_untouched

theorem beginDrain_readsNoLog (k : Continuation) : ReadsNoLog (beginDrain k) :=
  (emit_readsNoLog .reqDrain).comp .of_untouched

theorem exitProcess_readsNoLog : ReadsNoLog exitProcess :=
  .of_appends fun s => [.exit (exitCodeOf s.params.failExitCode s.cause)]

theorem dropLink_readsNoLog : ReadsNoLog dropLink := .of_appends fun _ => [.log .linkLost]

theorem finishCycle_readsNoLog (b : Byte) (f : List Byte) : ReadsNoLog (finishCycle b f) :=
  (emit_readsNoLog (.frame f)).comp .of_untouched

theorem startRule_readsNoLog : ReadsNoLog startRule := .ite (requestOpen_readsNoLog.comp .of_untouched) (.raiseFault _)

theorem openOkRule_readsNoLog : ReadsNoLog openOkRule := .ite .of_untouched (.raiseFault _)

theorem openFailRule_readsNoLog : ReadsNoLog openFailRule :=
  .ite (.ite (retryOpen_readsNoLog.comp (emit_readsNoLog _)) ((enterTermination_readsNoLog _).comp (emit_readsNoLog _)))
    (.raiseFault _)

/-- ENCODE reads no register (40_encoder.md R138), so the frame is the same whatever the logs hold. -/
theorem rxRule_readsNoLog (b : Byte) : ReadsNoLog (rxRule b) := by
  refine .ite (.of_branch fun s => ?_) .nothing
  cases hf : encodeFrame s.params.barArith s.draw with
  | some frame => exact ⟨_, finishCycle_readsNoLog b frame, fun f log => by simp [sampleDraw, hf]⟩
  | none => exact ⟨_, .raiseFault .inRange, fun f log => by simp [sampleDraw, hf]⟩

theorem txTakeRule_readsNoLog : ReadsNoLog txTakeRule := by
  refine .of_branch fun s => ?_
  cases hq : s.txq with
  | nil => exact ⟨_, .raiseFault .evContext, fun f log => by simp [txTakeRule, hq]⟩
  | cons b rest =>
    exact ⟨fun s => if s.handle then emit (.wire b) { s with txq := rest } else raiseFault .evContext s,
      .ite ((emit_readsNoLog _).comp .of_untouched) (.raiseFault _), fun f log => by simp [txTakeRule, hq]⟩

theorem linkLostRule_readsNoLog : ReadsNoLog linkLostRule :=
  .ite (.ite (retryOpen_readsNoLog.comp dropLink_readsNoLog) ((enterTermination_readsNoLog _).comp dropLink_readsNoLog))
    (.raiseFault _)

theorem disconnectRule_readsNoLog : ReadsNoLog disconnectRule := .ite (beginDrain_readsNoLog _) (.raiseFault _)

theorem drainDoneRule_readsNoLog : ReadsNoLog drainDoneRule :=
  .ite ((emit_readsNoLog _).comp .of_untouched) (.raiseFault _)

theorem closeDoneRule_readsNoLog : ReadsNoLog closeDoneRule := .ite .of_untouched (.raiseFault _)

theorem terminateRule_readsNoLog : ReadsNoLog terminateRule := by
  refine .ite .nothing (.of_branch fun s => ?_)
  cases hl : s.ls with
  | disconnected | opened | closed =>
    exact ⟨_, enterTermination_readsNoLog .signal, fun f log => by simp [hl]⟩
  | connecting | terminating =>
    exact ⟨_, recordCause_readsNoLog .signal, fun f log => by simp [hl]⟩
  | draining =>
    exact ⟨fun s => { recordCause .signal s with cont := .exit }, .of_untouched, fun f log => by simp [hl]⟩
  | exited => exact ⟨_, .nothing, fun f log => by simp [hl]⟩

theorem tickRule_readsNoLog : ReadsNoLog tickRule := by
  have hoff : ReadsNoLog tickForceOff := .ite (.of_appends fun _ => [.cmdDisplayOff]) .nothing
  have hon : ReadsNoLog tickForceOn := .ite (.of_appends fun _ => [.cmdDisplayOn]) .nothing
  have hclear : ReadsNoLog fun s => { s with forcedOn := false, forcedOff := false } := .of_untouched
  exact hclear.comp (hon.comp hoff)

/-- An event, as the rule that runs unless LS = EXITED, reads neither log. -/
theorem exec_eq_readsNoLog (i : Instr) : ∃ rule, ReadsNoLog rule ∧ ∀ s, exec i s = .next (rule s) := by
  have guarded {rule : State → State} (h : ReadsNoLog rule) : ReadsNoLog fun s => if s.ls = .exited then s else rule s :=
    .ite .nothing h
  cases i with
  | start => exact ⟨_, guarded startRule_readsNoLog, exec_start⟩
  | openOk => exact ⟨_, guarded openOkRule_readsNoLog, exec_openOk⟩
  | openFail => exact ⟨_, guarded openFailRule_readsNoLog, exec_openFail⟩
  | rx b => exact ⟨_, guarded (rxRule_readsNoLog b), exec_rx b⟩
  | txTake => exact ⟨_, guarded txTakeRule_readsNoLog, exec_txTake⟩
  | linkLost => exact ⟨_, guarded linkLostRule_readsNoLog, exec_linkLost⟩
  | drainDone => exact ⟨_, guarded drainDoneRule_readsNoLog, exec_drainDone⟩
  | closeDone => exact ⟨_, guarded closeDoneRule_readsNoLog, exec_closeDone⟩
  | disconnect => exact ⟨_, guarded disconnectRule_readsNoLog, exec_disconnect⟩
  | terminate => exact ⟨_, guarded terminateRule_readsNoLog, exec_terminate⟩
  | tick => exact ⟨_, guarded tickRule_readsNoLog, exec_tick⟩
  | step => exact ⟨_, .ite (.ite (beginDrain_readsNoLog _) exitProcess_readsNoLog) .nothing, exec_step⟩

/-- One state, some bits and some actions answer an event, whatever FAULT and OUT hold. -/
theorem exec_withLogs (i : Instr) (s : State) : ∃ (t : State) (bits : BitVec 3) (actions : List Action), ∀ f log,
    exec i (s.withLogs f log) = .next (t.withLogs (f ||| bits) (log ++ actions)) := by
  obtain ⟨rule, hrule, hexec⟩ := exec_eq_readsNoLog i
  obtain ⟨bits, actions, h⟩ := hrule s
  exact ⟨rule s, bits, actions, fun f log => by rw [hexec, h]⟩

/-- Settles O45: vary FAULT alone in `exec_withLogs`. -/
theorem faultRegisterIsNeverRead : Obligations.FaultRegisterIsNeverRead := by
  intro i s f
  obtain ⟨t, bits, actions, h⟩ := exec_withLogs i s
  exact ⟨{ t with out := s.out ++ actions }, bits, h s.fault s.out, h f s.out⟩

/-- Settles O46: vary OUT alone in `exec_withLogs`. -/
theorem outputLogIsNeverRead : Obligations.OutputLogIsNeverRead := by
  intro i s log
  obtain ⟨t, bits, actions, h⟩ := exec_withLogs i s
  exact ⟨{ t with fault := s.fault ||| bits }, actions, h s.fault s.out, h s.fault log⟩

end Sys2Proof.Machine
end

section
/-! The grammar of a frame (42_framing.md R173): the frames ENCODE gives have it, because a bar of 40_encoder.md R133 lies in
0..127, binary64's rounding of the product included. -/

namespace Sys2Proof.Machine

/-- Rounding a quotient adds at most half. -/
theorem roundTiesEven_le_add_half (n d : Nat) (hd : 0 < d) : (roundTiesEven n d : Rat) ≤ n / d + 1 / 2 := by
  have hd' : (0 : Rat) < d := by exact_mod_cast hd
  have hnear : (2 * (roundTiesEven n d * d) : Rat) ≤ 2 * n + d := by exact_mod_cast (roundTiesEven_near n d hd).2
  rw [div_add_div _ _ hd'.ne' two_ne_zero, le_div_iff₀ (by positivity)]
  linarith

/-- The quotient that `nearestBinary64` rounds is the magnitude in units of its last place. -/
theorem natAbs_div_den_eq {q : Rat} (h0 : 0 ≤ q) (u : Int) :
    ((q.num.natAbs * 2 ^ (-u).toNat : Nat) : Rat) / (q.den * 2 ^ u.toNat : Nat) = q / 2 ^ u := by
  have hnum : (q.num.natAbs : Rat) = q.num := by rw [Nat.cast_natAbs, abs_of_nonneg (Rat.num_nonneg.2 h0)]
  rw [two_zpow_eq]
  push_cast
  rw [hnum, div_div_eq_mul_div, mul_div_mul_comm, Rat.num_div_den, mul_div_assoc]

/-- Rounding to binary64 keeps a number that is not negative so, and adds at most half a unit of its last place. -/
theorem nearestBinary64_bounds {q : Rat} (h0 : 0 ≤ q) :
    0 ≤ nearestBinary64 q ∧ nearestBinary64 q ≤ q + 2 ^ lastPlace q.num.natAbs q.den / 2 := by
  rcases h0.eq_or_lt with rfl | hpos
  · rw [nearestBinary64_eq]
    simp only [Rat.num_zero, Int.sign_zero, Int.cast_zero, zero_mul, le_refl, zero_add, true_and]
    positivity
  · have hsign : q.num.sign = 1 := Int.sign_eq_one_of_pos (Rat.num_pos.2 hpos)
    rw [nearestBinary64_eq, hsign, one_mul, Int.cast_natCast]
    generalize lastPlace q.num.natAbs q.den = u
    have hunit : (0 : Rat) < 2 ^ u := by positivity
    refine ⟨by positivity, ?_⟩
    have hround := roundTiesEven_le_add_half (q.num.natAbs * 2 ^ (-u).toNat) (q.den * 2 ^ u.toNat)
      (Nat.mul_pos q.den_pos (by positivity))
    rw [natAbs_div_den_eq hpos.le] at hround
    calc _ ≤ (q / 2 ^ u + 1 / 2) * 2 ^ u := by exact_mod_cast mul_le_mul_of_nonneg_right hround hunit.le
      _ = q + 2 ^ u / 2 := by field_simp

/-- Below 2^53 a binary64 number's last place is at most a unit. -/
theorem lastPlace_nonpos {q : Rat} (h0 : 0 < q) (hq : q < 2 ^ 53) : lastPlace q.num.natAbs q.den ≤ 0 := by
  have hlow := (floorLog2_spec q.num.natAbs q.den (Int.natAbs_pos.2 (Rat.num_pos.2 h0).ne') q.den_pos).1
  have hself : (q.num.natAbs : Rat) / q.den = q := by simpa using natAbs_div_den_eq h0.le 0
  rw [hself] at hlow
  have hexp : floorLog2 q.num.natAbs q.den < 53 :=
    (zpow_lt_zpow_iff_right₀ (a := (2 : Rat)) one_lt_two).1 (hlow.trans_lt (by exact_mod_cast hq))
  unfold lastPlace
  omega

/-- The product of 40_encoder.md R133, as either BAR_ARITH evaluates it, stays below bit 7. -/
theorem scaledValue_bounds (arith : BarArith) {x : Rat} (h0 : 0 ≤ x) (h1 : x ≤ 1) :
    0 ≤ scaledValue arith x ∧ scaledValue arith x < 128 := by
  have hp0 : 0 ≤ (Config.barScale : Rat) * x := by positivity
  have hp1 : (Config.barScale : Rat) * x ≤ 127 := by simpa [Config.barScale] using h1
  cases arith with
  | exact => exact ⟨hp0, by simp only [scaledValue]; linarith⟩
  | binary64 =>
    simp only [scaledValue]
    generalize (Config.barScale : Rat) * x = p at hp0 hp1
    obtain ⟨hlow, hhigh⟩ := nearestBinary64_bounds hp0
    refine ⟨hlow, ?_⟩
    rcases hp0.eq_or_lt with rfl | hpos
    · simp [nearestBinary64_eq]
    · have hunit : (2 : Rat) ^ lastPlace p.num.natAbs p.den ≤ 1 :=
        zpow_le_one_of_nonpos₀ one_le_two (lastPlace_nonpos hpos (by linarith))
      linarith

/-- A bar has bit 7 clear (40_encoder.md R133). -/
theorem quantise_toNat_lt (arith : BarArith) {x : Rat} (h0 : 0 ≤ x) (h1 : x ≤ 1) : (quantise arith x).toNat < 128 := by
  obtain ⟨hlow, hhigh⟩ := scaledValue_bounds arith h0 h1
  have hfloor0 : 0 ≤ (scaledValue arith x).floor := Rat.le_floor_iff.2 (by exact_mod_cast hlow)
  have hfloor1 : (scaledValue arith x).floor < 128 := Rat.floor_lt_iff.2 (by exact_mod_cast hhigh)
  rw [quantise, BitVec.toNat_ofInt]
  omega

theorem barOf_toNat_lt {arith : BarArith} {x : Num} {b : Byte} (h : barOf arith x = some b) : b.toNat < 128 := by
  obtain ⟨q, hq, rfl⟩ := (barOf_eq_some_iff arith x b).1 h
  obtain ⟨-, h0, h1⟩ := (unitValue_eq_some_iff arith x q).1 hq
  exact quantise_toNat_lt arith h0 h1

theorem coreBar_toNat_lt {arith : BarArith} {c : CoreReading} {b : Byte} (h : coreBar arith c = some b) : b.toNat < 128 := by
  cases hv : c.valid with
  | false =>
    rw [coreBar_of_invalid arith c hv, Option.some.injEq] at h
    simp [← h]
  | true => exact barOf_toNat_lt (coreBar_of_valid arith c hv ▸ h)

theorem coreBars_toNat_lt {arith : BarArith} {cs : List CoreReading} {bs : List Byte} (h : coreBars arith cs = some bs) :
    ∀ b ∈ bs, b.toNat < 128 := by
  have hbars := (coreBars_eq_some_iff arith cs bs).1 h
  clear h
  induction hbars with
  | nil => simp
  | cons hbar _ ih => simpa using ⟨coreBar_toNat_lt hbar, ih⟩

/-- R173's grammar, one conjunct at a time. -/
theorem isFrame_cons_iff (h : Byte) (payload : List Byte) :
    isFrame (h :: payload) = true ↔
      0x81 ≤ h.toNat ∧ h.toNat ≤ 0xA0 ∧ h.toNat = 128 + payload.length ∧ ∀ b ∈ payload, b.toNat < 128 := by
  simp [isFrame, and_assoc]

/-- Every frame of ENCODE has the grammar of 42_framing.md R173. -/
theorem isFrame_of_encodeFrame {arith : BarArith} {smp : Sample} {f : List Byte} (h : encodeFrame arith smp = some f) :
    isFrame f = true := by
  obtain ⟨bars, m, hbars, hm, rfl⟩ := (encodeFrame_eq_some_iff arith smp f).1 h
  have hlen := coreBars_length arith _ bars hbars
  have hkept : (keptCores smp).length ≤ 31 := by simp [keptCores_length]
  rw [isFrame_cons_iff, headerByte_toNat _ hkept, List.length_append, List.length_singleton]
  refine ⟨by omega, by omega, by omega, ?_⟩
  simpa [or_imp, forall_and] using ⟨coreBars_toNat_lt hbars, barOf_toNat_lt hm⟩

end Sys2Proof.Machine
end

section
/-! The outbound stream (20_memory.md R78, R80): what each event does to the frames written and the bytes sent since the last
REQ_OPEN. -/

namespace Sys2Proof.Machine

/-- The frames written since the last REQ_OPEN (20_memory.md R78). -/
def framesSinceOpen (s : State) : List (List Byte) := framesOf (sinceReqOpen s.out)

/-- The bytes on the wire since the last REQ_OPEN (20_memory.md R78). -/
def wiresSinceOpen (s : State) : List Byte := wiresOf (sinceReqOpen s.out)

/-- `StreamInvariant` without the grammar of the frames: the order of the bytes (20_memory.md R78). -/
def StreamInOrder (s : State) : Prop :=
  wiresSinceOpen s <+: (framesSinceOpen s).flatten ∧
  (s.handle = true → (framesSinceOpen s).flatten = wiresSinceOpen s ++ s.txq) ∧
  (s.ls = .connecting → framesSinceOpen s = [])

theorem streamInvariant_iff (s : State) :
    StreamInvariant s ↔ (∀ f ∈ framesOf s.out, isFrame f = true) ∧ StreamInOrder s := Iff.rfl

/-- The actions that neither start the stream anew, nor write a frame, nor send a byte. -/
def isSilent : Action → Bool
  | .reqOpen _ _ | .frame _ | .wire _ => false
  | .reqDrain | .reqClose | .cmdDisplayOn | .cmdDisplayOff | .log _ | .exit _ => true

/-- The same frames written and the same bytes sent since the last REQ_OPEN. -/
def SameStream (s t : State) : Prop := framesSinceOpen t = framesSinceOpen s ∧ wiresSinceOpen t = wiresSinceOpen s

theorem framesSinceOpen_of_append {s t : State} {a : Action} (hout : t.out = s.out ++ [a]) (ha : isReqOpen a = false) :
    framesSinceOpen t = framesSinceOpen s ++ framesOf [a] := by
  simp [framesSinceOpen, hout, sinceReqOpen_concat, ha, framesOf_append]

theorem wiresSinceOpen_of_append {s t : State} {a : Action} (hout : t.out = s.out ++ [a]) (ha : isReqOpen a = false) :
    wiresSinceOpen t = wiresSinceOpen s ++ wiresOf [a] := by
  simp [wiresSinceOpen, hout, sinceReqOpen_concat, ha, wiresOf_append]

theorem sameStream_of_out_eq {s t : State} (hout : t.out = s.out) : SameStream s t := by
  simp [SameStream, framesSinceOpen, wiresSinceOpen, hout]

theorem sameStream_of_silent {s t : State} {a : Action} (hout : t.out = s.out ++ [a]) (ha : isSilent a = true) :
    SameStream s t := by
  obtain ⟨hreq, hframe, hwire⟩ : isReqOpen a = false ∧ framesOf [a] = [] ∧ wiresOf [a] = [] := by
    cases a <;> simp_all [isSilent]
  simp [SameStream, framesSinceOpen_of_append hout hreq, wiresSinceOpen_of_append hout hreq, hframe, hwire]

theorem RegisterInvariants.connecting {s : State} (hs : RegisterInvariants s) (hl : s.ls = .connecting) :
    s.handle = false ∧ s.txq = [] := by
  obtain ⟨-, -, hhandle, -, hqueue, -⟩ := (registerInvariants_iff hl).1 hs
  exact ⟨hhandle, hqueue⟩

theorem RegisterInvariants.handle_of_opened {s : State} (hs : RegisterInvariants s) (hl : s.ls = .opened) :
    s.handle = true := by
  obtain ⟨-, -, -, hhandle, -⟩ := (registerInvariants_iff hl).1 hs
  exact hhandle

theorem RegisterInvariants.handle_of_disconnected {s : State} (hs : RegisterInvariants s) (hl : s.ls = .disconnected) :
    s.handle = false := by
  obtain ⟨-, -, -, hhandle, -⟩ := (registerInvariants_iff hl).1 hs
  exact hhandle

/-! The stream stays in order in each of the five ways a step can bear on it: the link is asked for, it opens, a frame is written,
a byte is sent, or none of these happens. -/

/-- REQ_OPEN starts the stream anew (20_memory.md R78). -/
theorem streamInOrder_of_requested {t : State} (hout : sinceReqOpen t.out = []) (hh : t.handle = false) : StreamInOrder t := by
  simp [StreamInOrder, framesSinceOpen, wiresSinceOpen, hout, hh]

/-- On an open link, what TXQ holds says that the bytes sent come first in the frames (R78). -/
theorem streamInOrder_of_queue {t : State} (hl : t.ls ≠ .connecting)
    (hq : (framesSinceOpen t).flatten = wiresSinceOpen t ++ t.txq) : StreamInOrder t :=
  ⟨hq ▸ List.prefix_append _ _, fun _ => hq, fun h => absurd h hl⟩

/-- While an open is pending nothing is written, so nothing is sent, and the link opens with both empty. -/
theorem StreamInOrder.of_opened {s t : State} (hstream : StreamInOrder s) (hs : RegisterInvariants s) (hl : s.ls = .connecting)
    (hout : t.out = s.out) (hq : t.txq = s.txq) (hl' : t.ls ≠ .connecting) : StreamInOrder t := by
  obtain ⟨hprefix, -, hpending⟩ := hstream
  obtain ⟨hframes, hwires⟩ := sameStream_of_out_eq hout
  have hnoFrame : framesSinceOpen s = [] := hpending hl
  have hnoWire : wiresSinceOpen s = [] := by simpa [hnoFrame] using hprefix
  refine streamInOrder_of_queue hl' ?_
  rw [hframes, hwires, hq, hnoFrame, hnoWire, (hs.connecting hl).2]
  rfl

/-- A frame goes to the end of the stream and to the end of TXQ together (42_framing.md R171). -/
theorem StreamInOrder.of_frame {s t : State} {f : List Byte} (hstream : StreamInOrder s) (hout : t.out = s.out ++ [.frame f])
    (hq : t.txq = s.txq ++ f) (hh : s.handle = true) (hl : t.ls ≠ .connecting) : StreamInOrder t := by
  obtain ⟨-, hrest, -⟩ := hstream
  refine streamInOrder_of_queue hl ?_
  rw [framesSinceOpen_of_append hout rfl, wiresSinceOpen_of_append hout rfl, hq]
  simp [hrest hh]

/-- The byte that is sent is the first of TXQ (42_framing.md R172). -/
theorem StreamInOrder.of_wire {s t : State} {b : Byte} (hstream : StreamInOrder s) (hout : t.out = s.out ++ [.wire b])
    (hq : s.txq = b :: t.txq) (hh : s.handle = true) (hl : t.ls ≠ .connecting) : StreamInOrder t := by
  obtain ⟨-, hrest, -⟩ := hstream
  refine streamInOrder_of_queue hl ?_
  rw [framesSinceOpen_of_append hout rfl, wiresSinceOpen_of_append hout rfl]
  simp [hrest hh, hq]

theorem StreamInOrder.of_same {s t : State} (hstream : StreamInOrder s) (hsame : SameStream s t)
    (hlink : t.handle = true → s.handle = true ∧ t.txq = s.txq) (hl : t.ls = .connecting → s.ls = .connecting) :
    StreamInOrder t := by
  obtain ⟨hprefix, hrest, hpending⟩ := hstream
  obtain ⟨hframes, hwires⟩ := hsame
  rw [StreamInOrder, hframes, hwires]
  refine ⟨hprefix, fun hh => ?_, fun h => hpending (hl h)⟩
  obtain ⟨hh', hq⟩ := hlink hh
  rw [hq, hrest hh']

/-- Every event keeps the order of the stream. -/
theorem EventCase.keeps_streamInOrder {i : Instr} {s t : State} (h : EventCase i s t) (hs : RegisterInvariants s)
    (hstream : StreamInOrder s) : StreamInOrder t := by
  cases h with
  | exited | context | rxInRange | rxIgnored | terminateAgain | stepIdle => exact hstream
  | start _ hl => exact streamInOrder_of_requested (by simp [sinceReqOpen_concat]) (hs.handle_of_disconnected hl)
  | openFailRetry _ hl => exact streamInOrder_of_requested (by simp [sinceReqOpen_pair]) (hs.connecting hl).1
  | linkLostRetry => exact streamInOrder_of_requested (by simp [sinceReqOpen_pair]) rfl
  | openOkEnding _ hl | openOk _ hl => exact hstream.of_opened hs hl rfl rfl (by simp)
  | rxCycle _ _ _ hl => exact hstream.of_frame rfl rfl (hs.handle_of_opened hl) (by simp [hl])
  | txTake _ _ _ _ hh hq =>
    exact hstream.of_wire rfl hq hh fun hl => by simp [(hs.connecting hl).1] at hh
  | closeDoneExit | closeDoneNone | terminateAtOnce | terminateLater | terminateDraining | tickForced =>
    exact hstream.of_same (sameStream_of_out_eq rfl) (by simp) (by simp)
  | openFailFatal | linkLostFatal | drainDone | disconnect | tickOff | tickOn | stepDrain | stepExit =>
    exact hstream.of_same (sameStream_of_silent rfl rfl) (by simp) (by simp)

/-- Only ENCODE's frames are written. -/
theorem EventCase.frame_or_keeps {i : Instr} {s t : State} (h : EventCase i s t) :
    (∃ f, encodeFrame s.params.barArith s.draw = some f ∧ framesOf t.out = framesOf s.out ++ [f]) ∨
      framesOf t.out = framesOf s.out := by
  cases h with
  | rxCycle _ _ f _ _ hf => exact .inl ⟨f, hf, by simp [framesOf_append]⟩
  | _ => exact .inr (by simp [framesOf_append, framesOf_pair])

/-- Every event keeps what R78 and R173 say of the stream. -/
theorem EventCase.keeps_streamInvariant {i : Instr} {s t : State} (h : EventCase i s t) (hs : RegisterInvariants s)
    (hstream : StreamInvariant s) : StreamInvariant t := by
  obtain ⟨hgrammar, horder⟩ := (streamInvariant_iff s).1 hstream
  refine (streamInvariant_iff t).2 ⟨?_, h.keeps_streamInOrder hs horder⟩
  rcases h.frame_or_keeps with ⟨f, hf, hframes⟩ | hframes <;> rw [hframes]
  · simpa [or_imp, forall_and] using ⟨hgrammar, isFrame_of_encodeFrame hf⟩
  · exact hgrammar

/-- Settles O39: the registers' invariants, which say that no link is open while one is asked for, are kept together with the
stream's. -/
theorem stepsKeepTheStreamInOrder : Obligations.StepsKeepTheStreamInOrder := by
  intro s t hs hstream h
  have hkept : RegisterInvariants t ∧ StreamInvariant t :=
    step_keeps (P := fun s => RegisterInvariants s ∧ StreamInvariant s) (fun _ _ _ => id) (fun _ => id)
      (fun hcase ⟨hs, hstream⟩ => ⟨hcase.keeps_registerInvariants hs, hcase.keeps_streamInvariant hs hstream⟩) ⟨hs, hstream⟩ h
  exact hkept.2

/-- On an open link with an empty queue every byte written has been on the wire (20_memory.md R80). -/
theorem StreamInOrder.sent_of_txq_nil {s : State} (hstream : StreamInOrder s) (hh : s.handle = true) (hq : s.txq = []) :
    wiresSinceOpen s = (framesSinceOpen s).flatten := by
  obtain ⟨-, hrest, -⟩ := hstream
  rw [hrest hh, hq, List.append_nil]

/-- Settles O42: DRAIN_DONE changes OUT only past its barrier, where LS is DRAINING, so the link is open, and TXQ is empty. -/
theorem closeFollowsTheFlush : Obligations.CloseFollowsTheFlush := by
  intro s t hs hstream h hout
  cases exec_eventCase h with
  | exited | context => exact absurd rfl hout
  | drainDone _ hl _ hq =>
    obtain ⟨-, -, hhandle, -⟩ := (registerInvariants_iff hl).1 hs
    exact ⟨rfl, hq, ((streamInvariant_iff s).1 hstream).2.sent_of_txq_nil hhandle hq⟩

end Sys2Proof.Machine
end

section
/-! The event word (30_encoding.md R97 to R103): a word is its three fields, and the port's decoder inverts the
encoder. -/

namespace Sys2Proof

/-- A word is EV, RSV and DATA (30_encoding.md R97). -/
theorem eventWord_ext {w w' : EventWord} (hev : evField w = evField w') (hrsv : rsvField w = rsvField w')
    (hdata : dataField w = dataField w') : w = w' := by
  simp only [evField, rsvField, dataField, ← BitVec.toNat_inj, BitVec.extractLsb'_toNat, Nat.shiftRight_eq_div_pow]
    at hev hrsv hdata
  apply BitVec.eq_of_toNat_eq
  omega

/-- EV of an event's word, the first digit of 30_encoding.md R98's `match` column. -/
def Instr.evCode : Instr → BitVec 4
  | .start => 0x1
  | .openOk => 0x2
  | .openFail => 0x3
  | .rx _ => 0x4
  | .txTake => 0x5
  | .linkLost => 0x6
  | .drainDone => 0x7
  | .closeDone => 0x8
  | .disconnect => 0x9
  | .terminate => 0xA
  | .tick => 0xB
  | .step => 0xF

/-- DATA of an event's word: RX's byte, and 0 for every other event (30_encoding.md R99). -/
def Instr.operand : Instr → Byte
  | .rx b => b
  | _ => 0

theorem Instr.operand_eq_zero {i : Instr} (h : i.evCode ≠ 0x4) : i.operand = 0 := by
  cases i with
  | rx b => exact absurd rfl h
  | _ => rfl

/-- RX's word is 0x40 before the byte (30_encoding.md R99, R106). -/
theorem encode_rx_eq_append (b : Byte) : encode (.rx b) = (0x40 : Byte) ++ b := rfl

theorem fields_encode_rx (b : Byte) :
    evField (encode (.rx b)) = 0x4 ∧ rsvField (encode (.rx b)) = 0 ∧ dataField (encode (.rx b)) = b := by
  rw [encode_rx_eq_append]
  exact ⟨BitVec.extractLsb'_append_eq_of_le (by decide), BitVec.extractLsb'_append_eq_of_le (by decide),
    BitVec.extractLsb'_append_eq_right⟩

theorem fields_encode (i : Instr) :
    evField (encode i) = i.evCode ∧ rsvField (encode i) = 0 ∧ dataField (encode i) = i.operand := by
  cases i with
  | rx b => exact fields_encode_rx b
  | _ => exact ⟨rfl, rfl, rfl⟩

theorem encode_eq_iff (i : Instr) (w : EventWord) :
    encode i = w ↔ rsvField w = 0 ∧ i.evCode = evField w ∧ i.operand = dataField w := by
  obtain ⟨hev, hrsv, hdata⟩ := fields_encode i
  constructor
  · rintro rfl
    exact ⟨hrsv, hev.symm, hdata.symm⟩
  · rintro ⟨hrsv', hev', hdata'⟩
    exact eventWord_ext (hev.trans hev') (hrsv.trans hrsv'.symm) (hdata.trans hdata')

/-- The event map read backwards (30_encoding.md R98): a code names the event that has it, and RX takes DATA. -/
theorem eventOfCode_eq_ok_iff (ev : BitVec 4) (data : Byte) (i : Instr) :
    eventOfCode ev data = .ok i ↔ i.wellFormed = true ∧ i.evCode = ev ∧ (ev = 0x4 → i.operand = data) := by
  constructor
  · intro hok
    unfold eventOfCode at hok
    split at hok <;> cases hok <;> simp_all [Instr.wellFormed, Instr.evCode, Instr.operand, ← BitVec.toNat_inj]
  · rintro ⟨hwf, rfl, hdata⟩
    cases i <;> simp_all [eventOfCode, Instr.evCode, Instr.operand, Instr.wellFormed]

/-- The codes that name no event on the port (30_encoding.md R100). -/
theorem eventOfCode_eq_error_iff (ev : BitVec 4) (data : Byte) :
    (∃ e, eventOfCode ev data = .error e) ↔ ev = 0x0 ∨ ev = 0xC ∨ ev = 0xD ∨ ev = 0xE ∨ ev = 0xF := by
  have hlt := ev.isLt
  unfold eventOfCode
  split <;> simp_all [← BitVec.toNat_inj]
  omega

/-- The port's decoder answers an event when the three tests of 30_encoding.md R103 pass. -/
theorem decode_eq_ok_iff_tests (w : EventWord) (i : Instr) :
    decode w = .ok i ↔
      rsvField w = 0 ∧ eventOfCode (evField w) (dataField w) = .ok i ∧ ¬ (evField w ≠ 4 ∧ dataField w ≠ 0) := by
  unfold decode
  split
  · simp_all
  · split
    · simp_all
    · split <;> simp_all

/-- The port's decoder refuses a word when one of the three tests of 30_encoding.md R103 fails. -/
theorem decode_eq_error_iff_tests (w : EventWord) :
    (∃ e, decode w = .error e) ↔
      rsvField w ≠ 0 ∨ (∃ e, eventOfCode (evField w) (dataField w) = .error e) ∨ (evField w ≠ 4 ∧ dataField w ≠ 0) := by
  unfold decode
  split
  · exact iff_of_true ⟨_, rfl⟩ (.inl ‹_›)
  · split
    · exact iff_of_true ⟨_, rfl⟩ (.inr (.inl ⟨_, ‹_›⟩))
    · split
      · exact iff_of_true ⟨_, rfl⟩ (.inr (.inr ‹_›))
      · simp_all

/-- The words of 30_encoding.md R98: what the port's decoder answers with an event is the event's own word, and no other. -/
theorem decode_eq_ok_iff (w : EventWord) (i : Instr) : decode w = .ok i ↔ i.wellFormed = true ∧ encode i = w := by
  rw [encode_eq_iff, decode_eq_ok_iff_tests, eventOfCode_eq_ok_iff]
  constructor
  · rintro ⟨hrsv, ⟨hwf, hev, hrx⟩, hdata⟩
    refine ⟨hwf, hrsv, hev, ?_⟩
    by_cases hcode : evField w = 4
    · exact hrx hcode
    · rw [Instr.operand_eq_zero (hev ▸ hcode)]
      simp_all
  · rintro ⟨hwf, hrsv, hev, hoperand⟩
    exact ⟨hrsv, ⟨hwf, hev, fun _ => hoperand⟩,
      fun ⟨hcode, hdata⟩ => hdata (hoperand ▸ Instr.operand_eq_zero (hev ▸ hcode))⟩

theorem decode_encode {i : Instr} (h : i.wellFormed = true) : decode (encode i) = .ok i :=
  (decode_eq_ok_iff _ i).2 ⟨h, rfl⟩

theorem decode_stepLabel : decode stepLabel = .error .stepOnPort := rfl

/-- No event that may stand on the port has STEP's label (30_encoding.md R101). -/
theorem encode_ne_stepLabel {i : Instr} (h : i.wellFormed = true) : encode i ≠ stepLabel := by
  intro hlabel
  have hdec := decode_encode h
  rw [hlabel, decode_stepLabel] at hdec
  cases hdec

theorem Instr.eq_step_or_wellFormed (i : Instr) : i = .step ∨ i.wellFormed = true := by
  rw [Instr.wellFormed, bne_iff_ne]
  exact eq_or_ne i .step

theorem decodeLabel_encode (i : Instr) : decodeLabel (encode i) = .ok i := by
  rcases i.eq_step_or_wellFormed with rfl | h
  · rfl
  · rw [decodeLabel, if_neg (encode_ne_stepLabel h), decode_encode h]

/-- Settles O2: the port's decoder answers an event on its own word and on no other. -/
theorem decodeInvertsEncode : Obligations.DecodeInvertsEncode :=
  ⟨fun _ => decode_encode, fun w i => (decode_eq_ok_iff w i).1, decodeLabel_encode⟩

/-- The illegal words of 30_encoding.md R100. -/
theorem decode_eq_error_iff (w : EventWord) :
    (∃ e, decode w = .error e) ↔
      (w.ev = 0x0 ∨ w.ev = 0xC ∨ w.ev = 0xD ∨ w.ev = 0xE ∨ w.ev = 0xF) ∨ w.rsv ≠ 0 ∨ (w.ev ≠ 0x4 ∧ w.data ≠ 0) := by
  rw [decode_eq_error_iff_tests, eventOfCode_eq_error_iff, or_left_comm]
  rfl

/-- Settles O1: each word is read off the event map of 30_encoding.md R98. -/
theorem eventWordSamplesDecode : Obligations.EventWordSamplesDecode := by
  refine ⟨decode_encode (i := .start) rfl, decode_encode (i := .openOk) rfl, decode_encode (i := .rx 0xFF) rfl,
    decode_encode (i := .closeDone) rfl, decode_encode (i := .terminate) rfl, decode_encode (i := .tick) rfl, ?_⟩
  decide

end Sys2Proof
end

section
/-! Accept of an illegal word (43_link.md R191, 30_encoding.md R100). -/

namespace Sys2Proof.Machine

/-- Accept of a word that the port's decoder refuses (43_link.md R191). -/
theorem acceptWord_of_error {w : EventWord} {s : State} (hx : s.ls ≠ .exited) (h : ∃ e, decode w = .error e) :
    acceptWord w s = .next (raiseFault .evIllegal s) := by
  obtain ⟨e, he⟩ := h
  simp [acceptWord, hx, he]

/-- Settles O3: R100's tests are the decoder's, and a refused word sets bit 0 of FAULT. -/
theorem illegalWordsRaiseEvIllegal : Obligations.IllegalWordsRaiseEvIllegal :=
  ⟨decode_eq_error_iff, fun _ w hx h => acceptWord_of_error hx ((decode_eq_error_iff w).2 h)⟩

end Sys2Proof.Machine
end

section
/-! Which byte of a frame is its header (30_encoding.md R95). -/

namespace Sys2Proof.Machine

theorem getLsbD_seven_iff (b : Byte) : b.getLsbD 7 = true ↔ 128 ≤ b.toNat := by
  rw [show b.getLsbD 7 = b.msb from rfl, BitVec.msb_eq_decide, decide_eq_true_iff]

/-- Settles O36: R173's grammar puts the header at 0x81..0xA0 and every payload byte below 0x80. -/
theorem onlyHeadersHaveBitSeven : Obligations.OnlyHeadersHaveBitSeven := by
  intro arith smp f hf i b hb
  rw [getLsbD_seven_iff]
  have hframe := isFrame_of_encodeFrame hf
  cases f with
  | nil => cases hframe
  | cons header payload =>
    obtain ⟨hlow, hhigh, -, hpayload⟩ := (isFrame_cons_iff header payload).1 hframe
    cases i with
    | zero =>
      obtain rfl : header = b := by simpa using hb
      exact ⟨by simp; omega, fun _ => ⟨hlow, hhigh⟩⟩
    | succ i =>
      have hlt := hpayload b (List.mem_of_getElem? (by simpa using hb))
      exact ⟨by simp; omega, by simp⟩

end Sys2Proof.Machine
end

section
/-! Running a script: its plain steps take the events they are written as (30_encoding.md R106), and CYCLE puts its frame on the
wire (R105). -/

namespace Sys2Proof.Machine

theorem stimulusOfEvent_of_wellFormed {i : Instr} (h : i.wellFormed = true) (smp : Option Sample) :
    stimulusOfEvent i smp = .present (encode i) smp :=
  if_neg (encode_ne_stepLabel h)

/-- A plain step of a script takes the event it is written as (30_encoding.md R106). -/
theorem step_of_stimulusOfEvent {i : Instr} {smp : Option Sample} {rest : List Stimulus} {s : State}
    (hs : s.schedule = stimulusOfEvent i smp :: rest) (hx : s.ls ≠ .exited) :
    step s = exec i (takeStimulus (stimulusOfEvent i smp) rest s) := by
  have hstep : step s = runStimulus (stimulusOfEvent i smp) (takeStimulus (stimulusOfEvent i smp) rest s) := by
    simp only [step, hs]
  rw [hstep]
  rcases i.eq_step_or_wellFormed with rfl | h
  · rfl
  · simp [stimulusOfEvent_of_wellFormed h, runStimulus, acceptWord, decode_encode h, hx]

/-- RX of a script on an open link, where ENCODE gives a frame for its sample (43_link.md R195). -/
theorem step_rx_of_encodeFrame {b : Byte} {smp : Sample} {f : List Byte} {rest : List Stimulus} {s : State}
    (hs : s.schedule = stimulusOfEvent (.rx b) (some smp) :: rest) (hl : s.ls = .opened) (he : s.ending = false)
    (hf : encodeFrame s.params.barArith smp = some f) :
    step s = .next (finishCycle b f (takeStimulus (stimulusOfEvent (.rx b) (some smp)) rest s)) := by
  have hdraw : drawOf s.stepIndex (stimulusOfEvent (.rx b) (some smp)) = smp := by
    rw [stimulusOfEvent_of_wellFormed rfl, drawOf]
  rw [step_of_stimulusOfEvent hs (by simp [hl]), exec_rx]
  simp [rxRule, sampleDraw, hl, he, hdraw, hf]

/-- TX_TAKE of a script on an open link, with a byte in TXQ (42_framing.md R172). -/
theorem step_txTake {b : Byte} {q : List Byte} {rest : List Stimulus} {s : State}
    (hs : s.schedule = stimulusOfEvent .txTake none :: rest) (hx : s.ls ≠ .exited) (hh : s.handle = true)
    (hq : s.txq = b :: q) :
    step s = .next (emit (.wire b) { takeStimulus (stimulusOfEvent .txTake none) rest s with txq := q }) := by
  rw [step_of_stimulusOfEvent hs hx, exec_txTake]
  simp [txTakeRule, hx, hh, hq]

/-- As many TX_TAKEs as TXQ holds bytes put them all on the wire, in order (42_framing.md R172). -/
theorem run_txTakes {q : List Byte} {s : State} (hs : s.schedule = List.replicate q.length (stimulusOfEvent .txTake none))
    (hx : s.ls ≠ .exited) (hh : s.handle = true) (hq : s.txq = q) :
    ∃ t, Sys2Proof.core.run q.length s = .next t ∧ t.txq = [] ∧ t.schedule = [] ∧ t.prevButtons = s.prevButtons ∧
      t.ls = s.ls ∧ t.fault = s.fault ∧ t.out = s.out ++ q.map .wire := by
  induction q generalizing s with
  | nil => exact ⟨s, core_run_zero s, hq, hs, rfl, rfl, rfl, by simp⟩
  | cons b q ih =>
    rw [List.length_cons, core_run_succ (step_txTake hs hx hh hq)]
    obtain ⟨t, hrun, htxq, hsched, hprev, hls, hfault, hout⟩ :=
      ih (s := emit (.wire b) { takeStimulus (stimulusOfEvent .txTake none) _ s with txq := q }) rfl hx hh rfl
    exact ⟨t, hrun, htxq, hsched, hprev, hls, hfault, by simp [hout]⟩

theorem encodeFrame_length {arith : BarArith} {smp : Sample} {f : List Byte} (h : encodeFrame arith smp = some f) :
    f.length = (keptCores smp).length + 2 := by
  obtain ⟨bars, m, hbars, -, rfl⟩ := (encodeFrame_eq_some_iff arith smp f).1 h
  simp [coreBars_length arith _ bars hbars]

/-- CYCLE of a frame `f` (30_encoding.md R105): RX, then one TX_TAKE for each byte of `f`. -/
theorem expandStep_cycle {arith : BarArith} {smp : Sample} {f : List Byte} (b : Byte) (h : encodeFrame arith smp = some f) :
    expandStep (.cycle b smp) =
      stimulusOfEvent (.rx b) (some smp) :: List.replicate f.length (stimulusOfEvent .txTake none) := by
  rw [encodeFrame_length h]
  rfl

/-- The plain steps of CYCLE on an open link with an empty queue: RX puts the frame alone into TXQ, and the TX_TAKEs that follow are
as many as its bytes. -/
theorem run_rx_txTakes {b : Byte} {smp : Sample} {f : List Byte} {s : State}
    (hs : s.schedule = stimulusOfEvent (.rx b) (some smp) :: List.replicate f.length (stimulusOfEvent .txTake none))
    (hl : s.ls = .opened) (he : s.ending = false) (hh : s.handle = true) (hq : s.txq = [])
    (hf : encodeFrame s.params.barArith smp = some f) :
    ∃ t, Sys2Proof.core.run (f.length + 1) s = .next t ∧ t.txq = [] ∧ t.schedule = [] ∧ t.prevButtons = b ∧
      t.ls = s.ls ∧ t.fault = s.fault ∧ t.out = s.out ++ [.frame f] ++ f.map .wire := by
  rw [core_run_succ (step_rx_of_encodeFrame hs hl he hf)]
  exact run_txTakes (by simp) (by simp [hl]) (by simp [hh]) (by simp [hq])

/-- Settles O60: the loaded script is RX and the TX_TAKEs of its frame. -/
theorem cycleScriptSendsItsFrame : Obligations.CycleScriptSendsItsFrame := by
  intro s b smp f hl he hh hq hf
  have hsched : (loadScript [.cycle b smp] s).schedule =
      stimulusOfEvent (.rx b) (some smp) :: List.replicate f.length (stimulusOfEvent .txTake none) := by
    simp [expandScript, expandStep_cycle b hf]
  rw [expandStep_cycle b hf, List.length_cons, List.length_replicate, ← hl]
  exact run_rx_txTakes hsched hl he hh hq hf

end Sys2Proof.Machine
end

section
/-! The bytes of a frame (40_encoder.md R131 to R136): which core or memory bar stands at which index, what ENCODE reads of a sample,
and when it gives no frame. -/

namespace Sys2Proof.Machine

/-- Settles O26: the header counts the kept cores, and so does the length. -/
theorem frameLengthAndHeaderLaw : Obligations.FrameLengthAndHeaderLaw := by
  intro arith smp f hf
  have hkept := keptCores_length smp
  refine ⟨by rw [encodeFrame_length hf, hkept], ?_⟩
  obtain ⟨bars, m, -, -, rfl⟩ := (encodeFrame_eq_some_iff arith smp f).1 hf
  rw [List.getElem?_cons_zero, Option.map_some, headerByte_toNat _ (by omega), hkept]

theorem keptCores_getElem? (smp : Sample) {i : Nat} (hi : i < 31) : (keptCores smp)[i]? = smp.cores[i]? :=
  List.getElem?_take_of_lt hi

/-- The kept cores are those at the indices below 31 (40_encoder.md R131). -/
theorem mem_keptCores_iff (smp : Sample) (c : CoreReading) :
    c ∈ keptCores smp ↔ ∃ i, i < 31 ∧ smp.cores[i]? = some c := by
  simp only [keptCores, Config.maxCores, List.mem_iff_getElem?, List.getElem?_take, Option.ite_none_right_eq_some]

/-- The bars of a list of cores, by index. -/
theorem coreBars_getElem? {arith : BarArith} {cs : List CoreReading} {bs : List Byte} (h : coreBars arith cs = some bs) {i : Nat}
    {c : CoreReading} (hc : cs[i]? = some c) : ∃ b, coreBar arith c = some b ∧ bs[i]? = some b := by
  have hbars := (coreBars_eq_some_iff arith cs bs).1 h
  obtain ⟨hi, rfl⟩ := List.getElem?_eq_some_iff.1 hc
  have hi' : i < bs.length := hbars.length_eq ▸ hi
  exact ⟨bs[i], hbars.get hi hi', List.getElem?_eq_getElem hi'⟩

/-- Byte `i + 1` of a frame is core `i`'s bar (40_encoder.md R134). -/
theorem encodeFrame_core_byte {arith : BarArith} {smp : Sample} {f : List Byte} (hf : encodeFrame arith smp = some f) {i : Nat}
    {c : CoreReading} (hi : i < 31) (hc : smp.cores[i]? = some c) : ∃ b, coreBar arith c = some b ∧ f[i + 1]? = some b := by
  obtain ⟨bars, m, hbars, -, rfl⟩ := (encodeFrame_eq_some_iff arith smp f).1 hf
  obtain ⟨b, hb, hget⟩ := coreBars_getElem? hbars (keptCores_getElem? smp hi ▸ hc)
  exact ⟨b, hb, by rw [List.getElem?_cons_succ, List.getElem?_append_left (List.getElem?_eq_some_iff.1 hget).1, hget]⟩

/-- The last byte of a frame is the memory's bar (40_encoder.md R135). -/
theorem encodeFrame_mem_byte {arith : BarArith} {smp : Sample} {f : List Byte} (hf : encodeFrame arith smp = some f) :
    ∃ b, barOf arith smp.mem = some b ∧ f[min 31 smp.cores.length + 1]? = some b := by
  obtain ⟨bars, m, hbars, hm, rfl⟩ := (encodeFrame_eq_some_iff arith smp f).1 hf
  have hlen : min 31 smp.cores.length = bars.length := by rw [coreBars_length arith _ bars hbars, keptCores_length]
  exact ⟨m, hm, by simp [hlen]⟩

/-- What ENCODE reads of a list of cores is the bar of each. -/
theorem coreBars_congr {arith : BarArith} {cs cs' : List CoreReading} (h : cs.map (coreBar arith) = cs'.map (coreBar arith)) :
    coreBars arith cs = coreBars arith cs' := by
  induction cs generalizing cs' with
  | nil => rw [List.map_eq_nil_iff.1 h.symm]
  | cons c cs ih =>
    obtain ⟨c', cs', rfl, hhead, htail⟩ := List.map_eq_cons_iff.1 h.symm
    rw [coreBars, coreBars, ih htail.symm, hhead]

/-- The bar of a core does not depend on an invalid core's value (40_encoder.md R134). -/
theorem coreBar_congr {arith : BarArith} {c c' : CoreReading} (hvalid : c.valid = c'.valid)
    (hvalue : c.valid = true → c.value = c'.value) : coreBar arith c = coreBar arith c' := by
  cases hv : c.valid with
  | false => rw [coreBar_of_invalid arith c hv, coreBar_of_invalid arith c' (hvalid ▸ hv)]
  | true => rw [coreBar_of_valid arith c hv, coreBar_of_valid arith c' (hvalid ▸ hv), hvalue hv]

/-- Settles O28: the kept cores have the same bars, one by one. -/
theorem unreadCoresDoNotMatter : Obligations.UnreadCoresDoNotMatter := by
  intro arith smp smp' hlen hmem hagree
  rw [← keptCores_length, ← keptCores_length] at hlen
  have hbars : coreBars arith (keptCores smp) = coreBars arith (keptCores smp') := by
    refine coreBars_congr (List.ext_getElem (by simpa using hlen) fun i hi hi' => ?_)
    rw [List.length_map] at hi hi'
    have h31 : i < 31 := by rw [keptCores_length] at hi; omega
    obtain ⟨hvalid, hvalue⟩ := hagree i _ _ h31
      (keptCores_getElem? smp h31 ▸ List.getElem?_eq_getElem hi) (keptCores_getElem? smp' h31 ▸ List.getElem?_eq_getElem hi')
    simpa using coreBar_congr hvalid hvalue
  rw [encodeFrame, encodeFrame, hbars, hmem, hlen]

theorem coreBars_of_invalid {arith : BarArith} {cs : List CoreReading} (h : ∀ c ∈ cs, c.valid = false) :
    coreBars arith cs = some (List.replicate cs.length 0) := by
  induction cs with
  | nil => rfl
  | cons c cs ih =>
    obtain ⟨hc, hcs⟩ := List.forall_mem_cons.1 h
    rw [coreBars, coreBar_of_invalid arith c hc, ih hcs]
    rfl

/-- Settles O31: an invalid core's bar is 0, whatever it reads. -/
theorem warmUpFrameIsZeros : Obligations.WarmUpFrameIsZeros := by
  intro arith smp q hinvalid hmem
  rw [encodeFrame_eq_some_iff, ← keptCores_length]
  exact ⟨_, _, coreBars_of_invalid fun c hc => hinvalid c (mem_cores_of_mem_keptCores hc),
    (barOf_eq_some_iff arith smp.mem _).2 ⟨q, hmem, rfl⟩, rfl⟩

theorem unitValue_eq_none_iff (arith : BarArith) (x : Num) :
    unitValue arith x = none ↔ ¬ ∃ q, numberValue arith x = some q ∧ 0 ≤ q ∧ q ≤ 1 := by
  simp [Option.eq_none_iff_forall_ne_some, unitValue_eq_some_iff]

/-- IN_RANGE, for each value that ENCODE reads (40_encoder.md R136). -/
theorem encodeFrame_eq_none_iff_unitValue (arith : BarArith) (smp : Sample) :
    encodeFrame arith smp = none ↔
      (∃ i c, i < 31 ∧ smp.cores[i]? = some c ∧ c.valid = true ∧ unitValue arith c.value = none) ∨
      unitValue arith smp.mem = none := by
  simp only [encodeFrame_eq_none_iff, mem_keptCores_iff, coreBar_eq_none_iff, barOf_eq_none_iff]
  constructor
  · rintro (⟨c, ⟨i, hi, hc⟩, hbad⟩ | hbad)
    · exact .inl ⟨i, c, hi, hc, hbad⟩
    · exact .inr hbad
  · rintro (⟨i, c, hi, hc, hbad⟩ | hbad)
    · exact .inl ⟨c, ⟨i, hi, hc⟩, hbad⟩
    · exact .inr hbad

/-- Under EXACT a rational fails the range check below 0 and above 1. -/
theorem unitValue_exact_rational_eq_none_iff (x : Rat) : unitValue .exact (.rational x) = none ↔ x < 0 ∨ 1 < x := by
  simp [unitValue_eq_none_iff, numberValue, imp_iff_not_or]

/-- A NaN or an infinity is no number (40_encoder.md R136). -/
theorem binary64Value_of_exponent_max {w : BitVec 64} (h : (w.extractLsb' 52 11).toNat = 2047) : binary64Value w = none := by
  simp [binary64Value, h]

/-- The RX whose draw ENCODE refuses raises IN_RANGE and changes nothing else (60_exceptions.md R231). -/
theorem exec_rx_of_encodeFrame_eq_none {s : State} (b : Byte) (hl : s.ls = .opened) (he : s.ending = false)
    (hf : encodeFrame s.params.barArith s.draw = none) : exec (.rx b) s = .next (raiseFault .inRange s) := by
  simp [exec_rx, rxRule, sampleDraw, hl, he, hf]

/-- Settles O29: ENCODE gives no frame exactly when the range check fails on a value it reads. -/
theorem inRangeIsRaisedExactly : Obligations.InRangeIsRaisedExactly := by
  refine ⟨fun arith smp => ?_, fun smp m hm hrational => ?_, fun w hw => binary64Value_of_exponent_max (by rw [hw]; rfl),
    fun s b hl he hf => exec_rx_of_encodeFrame_eq_none b hl he hf⟩
  · simp only [encodeFrame_eq_none_iff_unitValue, unitValue_eq_none_iff]
  · rw [encodeFrame_eq_none_iff_unitValue, hm, unitValue_exact_rational_eq_none_iff]
    refine or_congr_left ⟨?_, ?_⟩
    · rintro ⟨i, c, hi, hc, hvalid, hbad⟩
      obtain ⟨x, hx⟩ := hrational i c hi hc hvalid
      exact ⟨i, c, x, hi, hc, hvalid, hx, (unitValue_exact_rational_eq_none_iff x).1 (hx ▸ hbad)⟩
    · rintro ⟨i, c, x, hi, hc, hvalid, hx, hbad⟩
      exact ⟨i, c, hi, hc, hvalid, hx ▸ (unitValue_exact_rational_eq_none_iff x).2 hbad⟩

end Sys2Proof.Machine
end

section
/-! The rounding of BINARY64 (93_implementation_defined.md K2, notes/assumptions/11.md): it gives the binary64 number that is nearest,
which alone makes it monotone and keeps the binary64 numbers themselves. -/

namespace Sys2Proof.Machine

/-- The numbers of at most 53 significant bits and least exponent -1074: binary64's, with no greatest exponent. -/
def IsBinary64 (x : Rat) : Prop := ∃ (m : Int) (e : Int), m.natAbs ≤ 2 ^ 53 ∧ -1074 ≤ e ∧ x = (m : Rat) * (2 : Rat) ^ e

theorem IsBinary64.neg {x : Rat} (h : IsBinary64 x) : IsBinary64 (-x) := by
  obtain ⟨m, e, hm, he, rfl⟩ := h
  exact ⟨-m, e, by rwa [Int.natAbs_neg], he, by push_cast; ring⟩

/-- A whole number of up to 53 bits is a binary64 number. -/
theorem isBinary64_intCast {m : Int} (hm : m.natAbs ≤ 2 ^ 53) : IsBinary64 m := ⟨m, 0, hm, by norm_num, by simp⟩

/-- No whole number is nearer to a quotient than the rounded one. -/
theorem roundTiesEven_nearest (n d : Nat) (hd : 0 < d) (k : Int) :
    |(roundTiesEven n d : Rat) - n / d| ≤ |(k : Rat) - n / d| := by
  have hd' : (0 : Rat) < d := by exact_mod_cast hd
  have hup := roundTiesEven_le_add_half n d hd
  have hdown : (n : Rat) / d ≤ roundTiesEven n d + 1 / 2 := by
    have hnear : (2 * n : Rat) ≤ 2 * (roundTiesEven n d * d) + d := by exact_mod_cast (roundTiesEven_near n d hd).1
    rw [div_le_iff₀ hd']
    linarith
  have hhalf : |(roundTiesEven n d : Rat) - n / d| ≤ 1 / 2 := abs_le.2 ⟨by linarith, by linarith⟩
  rcases lt_trichotomy k (roundTiesEven n d : Int) with h | rfl | h
  · have : (k : Rat) + 1 ≤ roundTiesEven n d := by exact_mod_cast h
    exact hhalf.trans (le_abs.2 (.inr (by linarith)))
  · exact le_rfl
  · have : (roundTiesEven n d : Rat) + 1 ≤ k := by exact_mod_cast h
    exact hhalf.trans (le_abs.2 (.inl (by linarith)))

/-- Rounding a quotient does not carry it past a whole number. -/
theorem roundTiesEven_le {n d k : Nat} (hd : 0 < d) (h : (n : Rat) / d ≤ k) : roundTiesEven n d ≤ k := by
  have hround := roundTiesEven_le_add_half n d hd
  have : (roundTiesEven n d : Rat) < (k + 1 : Nat) := by push_cast; linarith
  exact Nat.lt_succ_iff.1 (by exact_mod_cast this)

/-- Rounding to binary64 is odd in the sign. -/
theorem nearestBinary64_neg (q : Rat) : nearestBinary64 (-q) = -nearestBinary64 q := by
  simp [nearestBinary64_eq, Int.sign_neg]

/-- Rounding of a positive number: its magnitude in units of its last place, rounded to a whole number. -/
theorem nearestBinary64_of_pos {q : Rat} (hq : 0 < q) :
    ∃ n d : Nat, 0 < d ∧ (n : Rat) / d = q / 2 ^ lastPlace q.num.natAbs q.den ∧
      nearestBinary64 q = (roundTiesEven n d : Rat) * 2 ^ lastPlace q.num.natAbs q.den :=
  ⟨_, _, Nat.mul_pos q.den_pos (by positivity), natAbs_div_den_eq hq.le _, by
    rw [nearestBinary64_eq, Int.sign_eq_one_of_pos (Rat.num_pos.2 hq), one_mul, Int.cast_natCast]⟩

/-- The exponent of a positive number's last place, from the number's own bounds. -/
theorem lastPlace_spec {q : Rat} (hq : 0 < q) :
    -1074 ≤ lastPlace q.num.natAbs q.den ∧ q < 2 ^ (lastPlace q.num.natAbs q.den + 53) ∧
      (-1074 < lastPlace q.num.natAbs q.den → (2 : Rat) ^ (lastPlace q.num.natAbs q.den + 52) ≤ q) := by
  obtain ⟨hlow, hhigh⟩ := floorLog2_spec q.num.natAbs q.den (Int.natAbs_pos.2 (Rat.num_pos.2 hq).ne') q.den_pos
  have hself : (q.num.natAbs : Rat) / q.den = q := by simpa using natAbs_div_den_eq hq.le 0
  rw [hself] at hlow hhigh
  unfold lastPlace
  generalize floorLog2 q.num.natAbs q.den = t at hlow hhigh
  refine ⟨le_max_right _ _, hhigh.trans_le (zpow_le_zpow_right₀ one_le_two (by omega)), fun h => ?_⟩
  rwa [show max (t - 52) (-1074) + 52 = t by omega]

/-- The last place is the only exponent that these bounds allow. -/
theorem lastPlace_eq {q : Rat} {e : Int} (hq : 0 < q) (he : -1074 ≤ e) (hhigh : q < 2 ^ (e + 53))
    (hlow : -1074 < e → (2 : Rat) ^ (e + 52) ≤ q) : lastPlace q.num.natAbs q.den = e := by
  obtain ⟨hmin, hhigh', hlow'⟩ := lastPlace_spec hq
  generalize lastPlace q.num.natAbs q.den = u at hmin hhigh' hlow'
  by_contra hne
  rcases lt_or_gt_of_ne hne with h | h
  · have := (zpow_lt_zpow_iff_right₀ (a := (2 : Rat)) one_lt_two).1 ((hlow (by omega)).trans_lt hhigh')
    omega
  · have := (zpow_lt_zpow_iff_right₀ (a := (2 : Rat)) one_lt_two).1 ((hlow' (by omega)).trans_lt hhigh)
    omega

theorem isBinary64_nearestBinary64_of_pos {q : Rat} (hq : 0 < q) : IsBinary64 (nearestBinary64 q) := by
  obtain ⟨n, d, hd, hquot, heq⟩ := nearestBinary64_of_pos hq
  obtain ⟨hmin, hhigh, -⟩ := lastPlace_spec hq
  refine ⟨roundTiesEven n d, _, ?_, hmin, by rw [heq, Int.cast_natCast]⟩
  rw [Int.natAbs_natCast]
  refine roundTiesEven_le hd ?_
  rw [hquot, div_le_iff₀ (by positivity)]
  rw [zpow_add₀ two_ne_zero, mul_comm] at hhigh
  exact_mod_cast hhigh.le

/-- A binary64 number of a smaller exponent than `u` lies no higher than the bottom of the binade whose last place is `2^u`. -/
theorem le_binade_of_exponent_lt {m e u : Int} (hm : m.natAbs ≤ 2 ^ 53) (he : e < u) : (m : Rat) * 2 ^ e ≤ 2 ^ (u + 52) := by
  have hm' : (m : Rat) ≤ 2 ^ (53 : Int) := by exact_mod_cast (by omega : m ≤ 2 ^ 53)
  calc (m : Rat) * 2 ^ e ≤ 2 ^ (53 : Int) * 2 ^ e := by gcongr
    _ = 2 ^ (53 + e) := (zpow_add₀ two_ne_zero _ _).symm
    _ ≤ 2 ^ (u + 52) := zpow_le_zpow_right₀ one_le_two (by omega)

/-- No multiple of the last place is nearer to a positive number than its rounding. -/
theorem nearestBinary64_nearest_multiple {q : Rat} (hq : 0 < q) (k : Int) :
    |nearestBinary64 q - q| ≤ |(k : Rat) * 2 ^ lastPlace q.num.natAbs q.den - q| := by
  obtain ⟨n, d, hd, hquot, heq⟩ := nearestBinary64_of_pos hq
  rw [heq]
  generalize lastPlace q.num.natAbs q.den = u at hquot
  have hunit : (0 : Rat) < 2 ^ u := by positivity
  have hscale (x : Rat) : |x * 2 ^ u - q| = |x - n / d| * 2 ^ u := by
    rw [← abs_of_pos hunit, ← abs_mul, abs_of_pos hunit, hquot, sub_mul, div_mul_cancel₀ _ hunit.ne']
  rw [hscale, hscale]
  exact mul_le_mul_of_nonneg_right (roundTiesEven_nearest n d hd k) hunit.le

/-- No binary64 number is nearer to a positive number than its rounding: it is a multiple of the last place, or lies below the bottom
of the number's binade, which is one. -/
theorem nearestBinary64_nearest_of_pos {q x : Rat} (hq : 0 < q) (hx : IsBinary64 x) : |nearestBinary64 q - q| ≤ |x - q| := by
  obtain ⟨m, e, hm, he, rfl⟩ := hx
  obtain ⟨-, -, hlow⟩ := lastPlace_spec hq
  have hmul := nearestBinary64_nearest_multiple hq
  generalize lastPlace q.num.natAbs q.den = u at hlow hmul
  rcases le_or_gt u e with hue | hue
  · have hk : (m : Rat) * 2 ^ e = ((m * 2 ^ (e - u).toNat : Int) : Rat) * 2 ^ u := by
      push_cast
      rw [mul_assoc, ← zpow_natCast, ← zpow_add₀ two_ne_zero, Int.toNat_of_nonneg (by omega), sub_add_cancel]
    rw [hk]
    exact hmul _
  · have hbottom : (2 : Rat) ^ (u + 52) = ((2 ^ 52 : Int) : Rat) * 2 ^ u := by
      rw [zpow_add₀ two_ne_zero, mul_comm]
      norm_cast
    have hbin := hlow (by omega)
    have hle := le_binade_of_exponent_lt hm hue
    calc |nearestBinary64 q - q| ≤ |(2 : Rat) ^ (u + 52) - q| := hbottom ▸ hmul (2 ^ 52)
      _ ≤ |(m : Rat) * 2 ^ e - q| := by
        rw [abs_of_nonpos (by linarith), abs_of_nonpos (by linarith)]
        linarith

theorem nearestBinary64_zero : nearestBinary64 0 = 0 := by simp [nearestBinary64_eq]

/-- Rounding to binary64 gives a binary64 number, and none is nearer. -/
theorem nearestBinary64_spec (q : Rat) :
    IsBinary64 (nearestBinary64 q) ∧ ∀ x, IsBinary64 x → |nearestBinary64 q - q| ≤ |x - q| := by
  rcases lt_trichotomy q 0 with hneg | rfl | hpos
  · have hq : 0 < -q := neg_pos.2 hneg
    have hround : nearestBinary64 q = -nearestBinary64 (-q) := by rw [nearestBinary64_neg, neg_neg]
    refine ⟨hround ▸ (isBinary64_nearestBinary64_of_pos hq).neg, fun x hx => ?_⟩
    have hnear := nearestBinary64_nearest_of_pos hq hx.neg
    rwa [nearestBinary64_neg, ← neg_sub', ← neg_sub', abs_neg, abs_neg] at hnear
  · rw [nearestBinary64_zero]
    exact ⟨isBinary64_intCast (m := 0) (by norm_num), fun x _ => by simp⟩
  · exact ⟨isBinary64_nearestBinary64_of_pos hpos, fun x => nearestBinary64_nearest_of_pos hpos⟩

/-- A binary64 number rounds to itself. -/
theorem nearestBinary64_of_isBinary64 {x : Rat} (hx : IsBinary64 x) : nearestBinary64 x = x := by
  have hnear := (nearestBinary64_spec x).2 x hx
  rwa [sub_self, abs_zero, abs_nonpos_iff, sub_eq_zero] at hnear

/-- Rounding to binary64 is monotone: were the roundings in the wrong order, their midpoint would be both numbers. -/
theorem nearestBinary64_mono {x y : Rat} (h : x ≤ y) : nearestBinary64 x ≤ nearestBinary64 y := by
  obtain ⟨hbx, hx⟩ := nearestBinary64_spec x
  obtain ⟨hby, hy⟩ := nearestBinary64_spec y
  by_contra! hlt
  have hx' := sq_le_sq.2 (hx _ hby)
  have hy' := sq_le_sq.2 (hy _ hbx)
  have hmid : nearestBinary64 x + nearestBinary64 y ≤ 2 * x := by nlinarith
  have hmid' : 2 * y ≤ nearestBinary64 x + nearestBinary64 y := by nlinarith
  obtain rfl : x = y := by linarith
  exact lt_irrefl _ hlt

/-- Half way between two neighbours, `m` and `m + 1` units of the last place, the even one is taken. -/
theorem nearestBinary64_half {m : Nat} {e : Int} (hm : m < 2 ^ 53) (he : -1074 ≤ e) (hnormal : 2 ^ 52 ≤ m ∨ e = -1074) :
    nearestBinary64 (((m : Rat) + 1 / 2) * 2 ^ e) = ((if m % 2 = 0 then m else m + 1 : Nat) : Rat) * 2 ^ e := by
  have hunit : (0 : Rat) < 2 ^ e := by positivity
  have hpos : 0 < ((m : Rat) + 1 / 2) * 2 ^ e := by positivity
  have hm' : (m : Rat) + 1 ≤ 2 ^ (53 : Int) := by exact_mod_cast hm
  have hplace : lastPlace (((m : Rat) + 1 / 2) * 2 ^ e).num.natAbs (((m : Rat) + 1 / 2) * 2 ^ e).den = e := by
    refine lastPlace_eq hpos he ?_ fun hlt => ?_
    · rw [zpow_add₀ two_ne_zero, mul_comm (2 ^ e)]
      exact mul_lt_mul_of_pos_right (by linarith) hunit
    · have hlow : (2 : Rat) ^ (52 : Int) ≤ m := by exact_mod_cast hnormal.resolve_right hlt.ne'
      rw [zpow_add₀ two_ne_zero, mul_comm (2 ^ e)]
      exact mul_le_mul_of_nonneg_right (by linarith) hunit.le
  obtain ⟨n, d, hd, hquot, heq⟩ := nearestBinary64_of_pos hpos
  rw [hplace] at hquot heq
  have hd' : (d : Rat) ≠ 0 := by exact_mod_cast hd.ne'
  have htie : 2 * n = (2 * m + 1) * d := by
    rw [mul_div_cancel_right₀ _ hunit.ne', div_eq_iff hd'] at hquot
    exact_mod_cast (by linarith : (2 * n : Rat) = (2 * m + 1) * d)
  rw [heq, roundTiesEven_half m n d htie hd]

/-- What a finite binary64 word stands for: its fraction, with the leading bit of a normal number, in units of its exponent. -/
theorem binary64Value_of_finite {w : BitVec 64} (h : (w.extractLsb' 52 11).toNat ≠ 2047) :
    binary64Value w = some ((if w.getLsbD 63 = true then -1 else 1) *
      ((if (w.extractLsb' 52 11).toNat = 0 then (w.extractLsb' 0 52).toNat else 2 ^ 52 + (w.extractLsb' 0 52).toNat : Nat) : Rat) *
      2 ^ (((max (w.extractLsb' 52 11).toNat 1 : Nat) : Int) - 1075)) := by
  simp only [binary64Value, if_neg h, Option.some.injEq]
  rw [Rat.mkRat_eq_div, two_zpow_eq]
  push_cast
  ring

/-- Settles O35: the rounding by its nearest number, its ties and its sign, and the words by their fields. -/
theorem roundingIsToTheNearestBinary64 : Obligations.RoundingIsToTheNearestBinary64 := by
  refine ⟨fun q => ⟨(nearestBinary64_spec q).1, fun m e hm he => (nearestBinary64_spec q).2 _ ⟨m, e, hm, he, rfl⟩⟩,
    fun m e hm he hnormal => nearestBinary64_half hm he hnormal, nearestBinary64_neg,
    fun w => ⟨binary64Value_of_exponent_max, fun h => ?_, fun h0 h => ?_⟩, fun arith w => rfl, fun q => ⟨rfl, rfl⟩⟩
  · rw [binary64Value_of_finite (by omega), if_pos h, h]
    rfl
  · rw [binary64Value_of_finite h, if_neg h0, max_eq_left (by omega)]

end Sys2Proof.Machine
end

section
/-! The bars (40_encoder.md R133): the floor of the product, as BAR_ARITH evaluates it, with no wrap-around. -/

namespace Sys2Proof.Machine

theorem scaledValue_exact (x : Rat) : scaledValue .exact x = 127 * x := rfl

theorem scaledValue_binary64 (x : Rat) : scaledValue .binary64 x = nearestBinary64 (127 * x) := rfl

theorem quantise_eq_ofInt_floor (arith : BarArith) (x : Rat) : quantise arith x = BitVec.ofInt 8 ⌊scaledValue arith x⌋ := rfl

/-- A bar is the floor of the product, with no wrap-around. -/
theorem quantise_toNat (arith : BarArith) {x : Rat} (h0 : 0 ≤ x) (h1 : x ≤ 1) :
    ((quantise arith x).toNat : Int) = ⌊scaledValue arith x⌋ := by
  obtain ⟨hlow, hhigh⟩ := scaledValue_bounds arith h0 h1
  have hfloor0 : 0 ≤ ⌊scaledValue arith x⌋ := Int.floor_nonneg.2 hlow
  have hfloor1 : ⌊scaledValue arith x⌋ < 128 := Int.floor_lt.2 (by exact_mod_cast hhigh)
  rw [quantise_eq_ofInt_floor, BitVec.toNat_ofInt]
  omega

theorem quantise_exact_toNat {x : Rat} (h0 : 0 ≤ x) (h1 : x ≤ 1) : ((quantise .exact x).toNat : Int) = ⌊127 * x⌋ :=
  quantise_toNat .exact h0 h1

/-- Under EXACT a bar is `k` on one interval. -/
theorem quantise_exact_toNat_eq_iff {x : Rat} (h0 : 0 ≤ x) (h1 : x ≤ 1) (k : Nat) :
    (quantise .exact x).toNat = k ↔ (k : Rat) / 127 ≤ x ∧ x < ((k : Rat) + 1) / 127 := by
  rw [← Int.ofNat_inj, quantise_exact_toNat h0 h1, Int.floor_eq_iff, div_le_iff₀' (by norm_num), lt_div_iff₀' (by norm_num),
    Int.cast_natCast]

/-- Settles O32: the interval of a bar, of which 1 alone is left to the bar 127. -/
theorem exactBarIsTheFloor : Obligations.ExactBarIsTheFloor := by
  intro x h0 h1
  refine ⟨quantise_exact_toNat h0 h1, fun k _ => quantise_exact_toNat_eq_iff h0 h1 k, ?_⟩
  rw [quantise_exact_toNat_eq_iff h0 h1]
  constructor
  · rintro ⟨hlow, -⟩
    exact le_antisymm h1 (by simpa using hlow)
  · rintro rfl
    norm_num

/-- The product is 127 at 1, a binary64 number. -/
theorem scaledValue_one (arith : BarArith) : scaledValue arith 1 = 127 := by
  cases arith with
  | exact => rw [scaledValue_exact, mul_one]
  | binary64 =>
    rw [scaledValue_binary64, mul_one]
    exact nearestBinary64_of_isBinary64 (isBinary64_intCast (m := 127) (by norm_num))

theorem scaledValue_zero (arith : BarArith) : scaledValue arith 0 = 0 := by
  cases arith with
  | exact => rw [scaledValue_exact, mul_zero]
  | binary64 => rw [scaledValue_binary64, mul_zero, nearestBinary64_zero]

theorem scaledValue_mono (arith : BarArith) {x y : Rat} (h : x ≤ y) : scaledValue arith x ≤ scaledValue arith y := by
  have hprod : 127 * x ≤ 127 * y := by linarith
  cases arith with
  | exact => exact hprod
  | binary64 => exact nearestBinary64_mono hprod

/-- Settles O33: the floor and, under BINARY64, the rounding are monotone. -/
theorem barsAreMonotone : Obligations.BarsAreMonotone := by
  intro arith
  refine ⟨by rw [quantise, scaledValue_zero]; rfl, by rw [quantise, scaledValue_one]; rfl, fun x y h0 hxy h1 => ?_⟩
  have hfloor := Int.floor_le_floor (scaledValue_mono arith hxy)
  rw [← quantise_toNat arith h0 (hxy.trans h1), ← quantise_toNat arith (h0.trans hxy) h1] at hfloor
  exact Int.ofNat_le.1 hfloor

/-- Settles O34: the floor of the product is below 128. -/
theorem barsFitSevenBits : Obligations.BarsFitSevenBits := by
  intro x h0 h1
  refine ⟨quantise_exact_toNat h0 h1, quantise_toNat .binary64 h0 h1, fun arith => ?_⟩
  have hlt := quantise_toNat_lt arith h0 h1
  refine ⟨(quantise_toNat arith h0 h1).symm, by omega, ?_⟩
  rw [← Bool.not_eq_true, getLsbD_seven_iff]
  omega

/-- A rational that ENCODE reads under EXACT is in [0, 1], and its bar is the floor of 127 times it. -/
theorem barOf_exact_rational {x : Rat} {b : Byte} (h : barOf .exact (.rational x) = some b) :
    0 ≤ x ∧ x ≤ 1 ∧ (b.toNat : Int) = ⌊127 * x⌋ := by
  obtain ⟨q, hq, rfl⟩ := (barOf_eq_some_iff .exact (.rational x) b).1 h
  obtain ⟨hx, h0, h1⟩ := (unitValue_eq_some_iff .exact (.rational x) q).1 hq
  obtain rfl : x = q := Option.some.inj hx
  exact ⟨h0, h1, quantise_exact_toNat h0 h1⟩

/-- Settles O27: the bytes of a frame are bars, by index, and a bar is a floor. -/
theorem frameBytesAreTheBars : Obligations.FrameBytesAreTheBars := by
  refine ⟨fun arith smp f hf => ⟨fun i c hi hc => ?_, ?_⟩,
    fun smp f hf => ⟨fun i c x hi hc hvalid hx => ?_, fun x hx => ?_⟩⟩
  · obtain ⟨b, hb, hget⟩ := encodeFrame_core_byte hf hi hc
    refine ⟨fun hinvalid => ?_, fun hvalid => ?_⟩
    · rw [coreBar_of_invalid arith c hinvalid] at hb
      rw [hget, ← hb]
    · obtain ⟨q, hq, rfl⟩ := (barOf_eq_some_iff arith c.value b).1 (coreBar_of_valid arith c hvalid ▸ hb)
      exact ⟨q, hq, hget⟩
  · obtain ⟨b, hb, hget⟩ := encodeFrame_mem_byte hf
    obtain ⟨q, hq, rfl⟩ := (barOf_eq_some_iff arith smp.mem b).1 hb
    exact ⟨q, hq, hget⟩
  · obtain ⟨b, hb, hget⟩ := encodeFrame_core_byte hf hi hc
    rw [coreBar_of_valid .exact c hvalid, hx] at hb
    obtain ⟨h0, h1, hfloor⟩ := barOf_exact_rational hb
    exact ⟨h0, h1, b, hget, hfloor⟩
  · obtain ⟨b, hb, hget⟩ := encodeFrame_mem_byte hf
    obtain ⟨h0, h1, hfloor⟩ := barOf_exact_rational (hx ▸ hb)
    exact ⟨h0, h1, b, hget, hfloor⟩

end Sys2Proof.Machine
end

section
/-! TICK (41_decoder.md R155 to R158): the command that the three bits TICK reads decide, and a run of ticks. -/

namespace Sys2Proof.Machine

/-- The display command that MON_ON asks for (41_decoder.md R155). -/
def displayCommand (monOn : Bool) : Action := if monOn then .cmdDisplayOn else .cmdDisplayOff

/-- What TICK emits (41_decoder.md R155): MON_ON's command, unless the one-shot flag of that command stands. -/
def tickActions (monOn forcedOn forcedOff : Bool) : List Action :=
  if (if monOn then forcedOn else forcedOff) then [] else [displayCommand monOn]

/-- TICK clears the one-shot flags and emits; the three bits that it reads decide what. -/
theorem tickRule_eq (s : State) :
    tickRule s = { s with
      forcedOn := false, forcedOff := false, out := s.out ++ tickActions s.monOn s.forcedOn s.forcedOff } := by
  rcases tickRule_cases s with ⟨hm, hf, e⟩ | ⟨hm, hf, e⟩ | ⟨⟨hm, hf⟩ | ⟨hm, hf⟩, e⟩ <;>
    simp [e, tickActions, displayCommand, emit, hm, hf]

theorem exec_tick_of_ne_exited {s : State} (hx : s.ls ≠ .exited) :
    exec .tick s = .next { s with
      forcedOn := false, forcedOff := false, out := s.out ++ tickActions s.monOn s.forcedOn s.forcedOff } := by
  rw [exec_tick, if_neg hx, tickRule_eq]

/-- Between steps the one-shot flags are 0 (10_state.md R47.8), so TICK emits its command and changes nothing else. -/
theorem exec_tick_of_oneShotsClear {s : State} (hx : s.ls ≠ .exited) (hclear : OneShotsClear s) :
    exec .tick s = .next (emit (displayCommand s.monOn) s) := by
  obtain ⟨hon, hoff⟩ := hclear
  rw [exec_tick_of_ne_exited hx]
  simp [tickActions, emit, hon, hoff]

/-- Settles O19: the emitted actions, for each value of the bits that TICK reads. -/
theorem tickForcesTheDisplay : Obligations.TickForcesTheDisplay := by
  refine ⟨rfl, fun s => ⟨fun hx hm hf => ?_, fun hx hm hf => ?_, fun hx hflag => ?_, fun hx => ?_⟩⟩
  · rw [exec_tick_of_ne_exited hx, hm, hf]
    rfl
  · rw [exec_tick_of_ne_exited hx, hm, hf]
    rfl
  · have hnone : tickActions s.monOn s.forcedOn s.forcedOff = [] := by
      rcases hflag with ⟨hm, hf⟩ | ⟨hm, hf⟩ <;> simp [tickActions, hm, hf]
    rw [exec_tick_of_ne_exited hx, hnone, List.append_nil]
  · rw [exec_tick, if_pos hx]

/-- Settles O21: R47.8 says that no one-shot flag holds the command back. -/
theorem everyTickEmitsOneCommand : Obligations.EveryTickEmitsOneCommand := by
  intro s hs hx
  obtain ⟨hclear, -⟩ := hs.steady
  refine ⟨_, exec_tick_of_oneShotsClear hx hclear, ?_⟩
  rw [emit_out, displayCommandsOf_append]
  cases s.monOn <;> rfl

/-- Settles O22: MON_ON and the one-shot flags alone decide the actions. -/
theorem tickReadsNoLinkRegister : Obligations.TickReadsNoLinkRegister := by
  intro s t hs ht hm hon hoff
  refine ⟨tickActions s.monOn s.forcedOn s.forcedOff, exec_tick_of_ne_exited hs, ?_⟩
  rw [exec_tick_of_ne_exited ht, hm, hon, hoff]

/-- TICK's word on the port, between steps. -/
theorem step_tick {rest : List Stimulus} {s : State} (hs : s.schedule = .present 0xB000 none :: rest) (hx : s.ls ≠ .exited)
    (hclear : OneShotsClear s) :
    step s = .next (emit (displayCommand s.monOn) (takeStimulus (.present 0xB000 none) rest s)) := by
  have hword : stimulusOfEvent .tick none = .present 0xB000 none := stimulusOfEvent_of_wellFormed rfl none
  rw [← hword] at hs ⊢
  rw [step_of_stimulusOfEvent hs hx]
  exact exec_tick_of_oneShotsClear hx hclear

/-- No tick changes what the next one reads, so each emits the same command (41_decoder.md R156). -/
theorem run_ticks {n : Nat} {s : State} (hs : s.schedule = List.replicate n (.present 0xB000 none)) (hx : s.ls ≠ .exited)
    (hclear : OneShotsClear s) :
    ∃ t : State, Sys2Proof.core.run n s = .next t ∧
      t = { s with
        out := s.out ++ List.replicate n (displayCommand s.monOn)
        schedule := [], draw := t.draw, stepIndex := s.stepIndex + n } := by
  induction n generalizing s with
  | zero =>
    have hnone : s.schedule = [] := hs
    refine ⟨s, core_run_zero s, ?_⟩
    rw [← hnone]
    simp
  | succ n ih =>
    rw [core_run_succ (step_tick hs hx hclear)]
    obtain ⟨t, hrun, ht⟩ := ih (s := emit (displayCommand s.monOn) (takeStimulus _ _ s)) rfl hx hclear
    refine ⟨t, hrun, ht.trans ?_⟩
    simp [emit, takeStimulus, List.replicate_succ, Nat.add_assoc, Nat.add_comm 1]

/-- Settles O20, by induction on the number of ticks. -/
theorem everyTickReissuesTheCommand : Obligations.EveryTickReissuesTheCommand :=
  fun _ _ hx hon hoff hs => run_ticks hs hx ⟨hon, hoff⟩

end Sys2Proof.Machine
end

section
/-! The button decoder (41_decoder.md R150 to R159): bit 0 of the two bytes decides the edges and MON_ON, and only RX decodes. -/

namespace Sys2Proof.Machine

theorem and_one_eq_ite (x : Byte) : x &&& 0x01 = if x.getLsbD 0 = true then 1 else 0 := by
  have hbit : x &&& 0x01 = (BitVec.ofBool (x.getLsbD 0)).setWidth 8 := BitVec.and_one_eq_setWidth_ofBool_getLsbD
  rw [hbit]
  cases x.getLsbD 0 <;> rfl

theorem pressedEdges_eq (prev b : Byte) :
    pressedEdges prev b = if prev.getLsbD 0 = false ∧ b.getLsbD 0 = true then 1 else 0 := by
  rw [pressedEdges, and_one_eq_ite]
  simp

theorem releasedEdges_eq (prev b : Byte) :
    releasedEdges prev b = if prev.getLsbD 0 = true ∧ b.getLsbD 0 = false then 1 else 0 := by
  rw [releasedEdges, and_one_eq_ite]
  simp

/-- Settles O23: the masks need opposite values of bit 0 of the previous byte. -/
theorem edgeMasksSeeBitZeroOnly : Obligations.EdgeMasksSeeBitZeroOnly := by
  intro prev b
  refine ⟨pressedEdges_eq prev b, releasedEdges_eq prev b, ?_⟩
  rw [pressedEdges_eq, releasedEdges_eq]
  cases prev.getLsbD 0
  · exact .inr rfl
  · exact .inl rfl

/-- MON_ON follows bit 0 at an edge, and is kept without one (41_decoder.md R151). -/
theorem monitorAfter_eq (prev b : Byte) (monOn : Bool) :
    monitorAfter prev b monOn = if prev.getLsbD 0 = b.getLsbD 0 then monOn else b.getLsbD 0 := by
  rw [monitorAfter, pressedEdges_eq, releasedEdges_eq]
  cases prev.getLsbD 0 <;> cases b.getLsbD 0 <;> rfl

/-- Whether RX runs a cycle, and with which frame, depends neither on its byte nor on PREV_BUTTONS; without a cycle it writes
FAULT at most (43_link.md R195). -/
theorem exec_rx_cycles_or_not (s : State) :
    (∃ f, ∀ p b, exec (.rx b) { s with prevButtons := p } = .next (finishCycle b f { s with prevButtons := p })) ∨
    (∃ bits, ∀ p b, exec (.rx b) { s with prevButtons := p } = .next { s with prevButtons := p, fault := bits }) := by
  by_cases hx : s.ls = .exited
  · exact .inr ⟨s.fault, fun p b => by simp [exec_rx, hx]⟩
  by_cases hcycle : s.ls = .opened ∧ s.ending = false
  · cases hf : encodeFrame s.params.barArith s.draw with
    | some f => exact .inl ⟨f, fun p b => by simp [exec_rx, rxRule, sampleDraw, hcycle, hf]⟩
    | none =>
      exact .inr ⟨s.fault ||| faultWeight .inRange, fun p b => by simp [exec_rx, rxRule, sampleDraw, raiseFault, hcycle, hf]⟩
  · exact .inr ⟨s.fault, fun p b => by simp [exec_rx, rxRule, hx, hcycle]⟩

/-- Settles O24: both RX run the cycle or neither does, and a cycle's MON_ON sees bit 0 only. -/
theorem reservedButtonBitsDecideNothing : Obligations.ReservedButtonBitsDecideNothing := by
  intro s p b b' hp hb
  rcases exec_rx_cycles_or_not s with ⟨f, hrx⟩ | ⟨bits, hrx⟩
  · have hmon : monitorAfter p b' s.monOn = monitorAfter s.prevButtons b s.monOn := by
      rw [monitorAfter_eq, monitorAfter_eq, hp, hb]
    refine ⟨_, _, hrx s.prevButtons b, hrx p b', ?_, .inl ⟨rfl, rfl⟩, fun hsame => ?_⟩
    · simp [finishCycle, emit, txAppend, decodeButtons, hmon]
    · rw [finishCycle_monOn, monitorAfter_eq, if_pos hsame.symm]
  · exact ⟨_, _, hrx s.prevButtons b, hrx p b', rfl, .inr ⟨rfl, rfl⟩, fun _ => rfl⟩

/-- Settles O25: no case of an event but RX's cycle writes either register. -/
theorem monitorStateSurvivesLinkEvents : Obligations.MonitorStateSurvivesLinkEvents := by
  intro i s t hi h
  cases exec_eventCase h with
  | rxCycle b => exact absurd rfl (hi b)
  | _ => exact ⟨rfl, rfl⟩

end Sys2Proof.Machine
end

section
/-! The frames on the wire (42_framing.md R170 to R178): who writes them, how their bytes leave, and how a receiver reads them
back. -/

namespace Sys2Proof.Machine

/-! The receiver. -/

/-- The low 7 bits of a header in R173's grammar are its payload's length (30_encoding.md R90). -/
theorem payloadLength_of_toNat_eq {header : Byte} {n : Nat} (hlow : header.toNat = 128 + n) : payloadLength header = n := by
  simp only [payloadLength, BitVec.extractLsb'_toNat, Nat.shiftRight_zero]
  omega

/-- A receiver at the start of a frame reads exactly that frame, whatever follows it (42_framing.md R176 (a)). -/
theorem readFrame_append_of_isFrame {f : List Byte} (rest : List Byte) (hf : isFrame f = true) :
    readFrame (f ++ rest) = some (f, rest) := by
  cases f with
  | nil => cases hf
  | cons header payload =>
    obtain ⟨-, -, hlen, -⟩ := (isFrame_cons_iff header payload).1 hf
    simp [readFrame, payloadLength_of_toNat_eq hlen]

/-- Frames joined end to end are read back one by one: nothing between them is needed (42_framing.md R173, R176). -/
theorem readFrames_flatten {fs : List (List Byte)} (hfs : ∀ f ∈ fs, isFrame f = true) :
    readFrames fs.length fs.flatten = fs := by
  induction fs with
  | nil => rfl
  | cons f fs ih =>
    obtain ⟨hf, hrest⟩ := List.forall_mem_cons.1 hfs
    simp [readFrames, readFrame_append_of_isFrame _ hf, ih hrest]

/-- The last payload byte is the memory bar, those before it are the core bars (42_framing.md R176 (b)). -/
theorem frameBars_cons_concat (header : Byte) (bars : List Byte) (m : Byte) :
    frameBars (header :: (bars ++ [m])) = (bars, some m) := by
  simp [frameBars]

/-- Settles O37: ENCODE's frames have R173's grammar, whose header says where the next frame begins. -/
theorem receiverRecoversTheFrames : Obligations.ReceiverRecoversTheFrames := by
  refine ⟨fun fs hfs => readFrames_flatten fun f hf => ?_, fun arith smp f hf => ?_⟩
  · obtain ⟨arith, smp, hencode⟩ := hfs f hf
    exact isFrame_of_encodeFrame hencode
  · obtain ⟨bars, m, hbars, hm, rfl⟩ := (encodeFrame_eq_some_iff arith smp f).1 hf
    rw [frameBars_cons_concat]
    exact ⟨hbars.symm, hm.symm⟩

/-- A byte with bit 7 clear is no header, so a receiver skips it (42_framing.md R178). -/
theorem resynchronise_append_of_lt {junk : List Byte} (stream : List Byte) (hjunk : ∀ b ∈ junk, b.toNat < 128) :
    resynchronise (junk ++ stream) = resynchronise stream := by
  refine List.dropWhile_append_of_pos fun b hb => ?_
  have hbit : b.getLsbD 7 = false := by
    rw [Bool.eq_false_iff, ne_eq, getLsbD_seven_iff, not_le]
    exact hjunk b hb
  simp only [hbit, Bool.not_false]

/-- At a frame's header a receiver is in its place (30_encoding.md R95). -/
theorem resynchronise_append_of_isFrame {f : List Byte} (rest : List Byte) (hf : isFrame f = true) :
    resynchronise (f ++ rest) = f ++ rest := by
  cases f with
  | nil => cases hf
  | cons header payload =>
    obtain ⟨-, -, hlen, -⟩ := (isFrame_cons_iff header payload).1 hf
    have hbit : header.getLsbD 7 = true := (getLsbD_seven_iff header).2 (by omega)
    simp [resynchronise, hbit]

/-- Settles O38: the junk is skipped, and the frame's header has bit 7 set. -/
theorem receiverFindsTheNextFrame : Obligations.ReceiverFindsTheNextFrame := by
  intro arith smp f junk rest hf hjunk
  rw [List.append_assoc, resynchronise_append_of_lt _ hjunk, resynchronise_append_of_isFrame _ (isFrame_of_encodeFrame hf)]

/-! The block's side: which events write to TXQ and to OUT's frames. -/

/-- No frame is written: OUT's frames are the same, and TXQ can only have lost bytes at its front. -/
def WritesNoFrame (s t : State) : Prop := framesOf t.out = framesOf s.out ∧ t.txq <:+ s.txq

/-- An event `i` that is an accepted RX writes ENCODE's frame, to TXQ and to OUT (42_framing.md R171, R174). -/
def WritesItsFrame (i : Instr) (s t : State) : Prop :=
  ∃ b f, i = .rx b ∧ s.ls = .opened ∧ s.ending = false ∧ encodeFrame s.params.barArith s.draw = some f ∧
    t.txq = s.txq ++ f ∧ framesOf t.out = framesOf s.out ++ [f]

theorem EventCase.writesNoFrame_or_writesItsFrame {i : Instr} {s t : State} (h : EventCase i s t) :
    WritesNoFrame s t ∨ WritesItsFrame i s t := by
  cases h with
  | rxCycle b _ f hl he hf => exact .inr ⟨b, f, rfl, hl, he, hf, rfl, by simp [framesOf_append]⟩
  | txTake _ b rest _ _ hq => exact .inl ⟨by simp [framesOf_append], by simp [hq]⟩
  | linkLostRetry | linkLostFatal => exact .inl ⟨by simp [framesOf_append, framesOf_pair], List.nil_suffix⟩
  | _ => exact .inl ⟨by simp [framesOf_append, framesOf_pair], List.suffix_rfl⟩

/-- Settles O40: the cases of R190's table, of which only RX's cycle appends. -/
theorem onlyCyclesWriteFrames : Obligations.OnlyCyclesWriteFrames := fun _ _ _ h =>
  (exec_eventCase h).writesNoFrame_or_writesItsFrame

/-- ENDING is never cleared (10_state.md R32). -/
theorem EventCase.keeps_ending {i : Instr} {s t : State} (h : EventCase i s t) (he : s.ending = true) : t.ending = true := by
  cases h with
  | openFailFatal | linkLostFatal | terminateAtOnce | terminateLater | terminateDraining => rfl
  | _ => exact he

/-- With ENDING = 1 no RX is accepted. -/
theorem EventCase.writesNoFrame_of_ending {i : Instr} {s t : State} (h : EventCase i s t) (he : s.ending = true) :
    WritesNoFrame s t := by
  rcases h.writesNoFrame_or_writesItsFrame with hnone | ⟨_, _, _, _, hrun, _⟩
  · exact hnone
  · simp [he] at hrun

theorem WritesNoFrame.trans {s t u : State} (h : WritesNoFrame s t) (h' : WritesNoFrame t u) : WritesNoFrame s u := by
  obtain ⟨hframes, hqueue⟩ := h
  obtain ⟨hframes', hqueue'⟩ := h'
  exact ⟨hframes'.trans hframes, hqueue'.trans hqueue⟩

/-- Settles O41: the stimulus is taken, and a word refused, without a write, and an event with ENDING = 1 is no accepted RX. -/
theorem noFrameAfterEnding : Obligations.NoFrameAfterEnding := by
  intro s t he h
  exact step_keeps (P := fun u => u.ending = true ∧ WritesNoFrame s u) (fun _ _ _ => id) (fun _ => id)
    (fun hcase ⟨hending, hnone⟩ => ⟨hcase.keeps_ending hending, hnone.trans (hcase.writesNoFrame_of_ending hending)⟩)
    ⟨he, rfl, List.suffix_rfl⟩ h

/-! TX_TAKE (42_framing.md R172). -/

theorem txTakeRule_of_cons {b : Byte} {rest : List Byte} {s : State} (hh : s.handle = true) (hq : s.txq = b :: rest) :
    txTakeRule s = emit (.wire b) { s with txq := rest } := by
  simp [txTakeRule, hq, hh]

theorem txTakeRule_of_no_byte {s : State} (hguard : s.handle = false ∨ s.txq = []) :
    txTakeRule s = raiseFault .evContext s := by
  rcases txTakeRule_cases s with ⟨hh, b, rest, hq, -⟩ | ⟨-, hrule⟩
  · simp [hh, hq] at hguard
  · exact hrule

/-- Settles O18: R172's guard, its fault, and EXITED. -/
theorem txTakeSendsTheFirstByte : Obligations.TxTakeSendsTheFirstByte := by
  refine ⟨rfl, fun s => ⟨fun b rest hx hh hq => ?_, fun hx hguard => ?_, fun hx => ?_⟩⟩ <;> rw [exec_txTake]
  · rw [if_neg hx, txTakeRule_of_cons hh hq]
    rfl
  · rw [if_neg hx, txTakeRule_of_no_byte hguard]
    rfl
  · rw [if_pos hx]

end Sys2Proof.Machine
end

section
/-! The link events one by one (43_link.md R190 to R201): the case of `EventCase` whose guard holds is what the event does, and an
event outside R190's table is EV_CONTEXT (60_exceptions.md R235). -/

namespace Sys2Proof.Machine

/-- An event on the port outside R190's table raises EV_CONTEXT (60_exceptions.md R235): every other case has its guard. -/
theorem exec_of_not_admitted {i : Instr} {s : State} (hx : s.ls ≠ .exited) (hg : admits i s = false)
    (hi : i ≠ .step := by simp) : exec i s = .next (raiseFault .evContext s) := by
  obtain ⟨t, ht⟩ := exec_completes i s
  cases exec_eventCase ht with
  | context => exact ht
  | exited _ _ hx' => exact absurd hx' hx
  | stepDrain | stepExit | stepIdle => exact absurd rfl hi
  | rxCycle | rxInRange | rxIgnored | terminateAgain | terminateAtOnce | terminateLater | terminateDraining | tickOff | tickOn
    | tickForced => simp [admits, hx] at hg
  | start _ hl | openOkEnding _ hl | openOk _ hl | openFailRetry _ hl | openFailFatal _ hl => simp [admits, hl] at hg
  | txTake _ _ _ _ hh hq => simp [admits, hx, hh, hq] at hg
  | linkLostRetry _ hh | linkLostFatal _ _ hh => simp [admits, hx, hh] at hg
  | drainDone _ hl hd hq => simp [admits, hl, hd, hq] at hg
  | closeDoneExit _ hl hd | closeDoneNone _ hl hd => simp [admits, hl, hd] at hg
  | disconnect _ hl he => simp [admits, hl, he] at hg

theorem exec_of_exited (i : Instr) {s : State} (hx : s.ls = .exited) : exec i s = .next s := by
  cases i <;>
    simp [exec_start, exec_openOk, exec_openFail, exec_rx, exec_txTake, exec_linkLost, exec_drainDone, exec_closeDone,
      exec_disconnect, exec_terminate, exec_tick, exec_step, hx]

/-- The converse of `exec_eventCase`: a case is what the event does. -/
theorem EventCase.exec_eq {i : Instr} {s t : State} (h : EventCase i s t) : exec i s = .next t := by
  cases h with
  | exited _ _ hx => exact exec_of_exited i hx
  | context _ _ hx hi hg => exact exec_of_not_admitted hx hg hi
  | start _ hl => simp [exec_start, startRule, hl]
  | openOkEnding _ hl he | openOk _ hl he => simp [exec_openOk, openOkRule, hl, he]
  | openFailRetry _ hl he hr => simp [exec_openFail, openFailRule, retryLeft, hl, he, hr]
  | openFailFatal _ hl hr =>
    have hguard : ¬ (s.ending = false ∧ retryLeft s = true) := by simpa [retryLeft, imp_iff_not_or] using hr
    simp [exec_openFail, openFailRule, hl, hguard]
  | rxCycle _ _ _ hl he hf | rxInRange _ _ hl he hf => simp [exec_rx, rxRule, sampleDraw, hl, he, hf]
  | rxIgnored _ _ hx hi => simp [exec_rx, rxRule, hi]
  | txTake _ _ _ hx hh hq => simp [exec_txTake, txTakeRule, hx, hh, hq]
  | linkLostRetry _ hh hl he hr => simp [exec_linkLost, linkLostRule, retryLeft, hh, hl, he, hr]
  | linkLostFatal _ hx hh hr =>
    have hguard : ¬ (s.ls = .opened ∧ s.ending = false ∧ retryLeft s = true) := by
      simpa [retryLeft, imp_iff_not_or] using hr
    simp [exec_linkLost, linkLostRule, hx, hh, hguard]
  | drainDone _ hl hd hq => simp [exec_drainDone, drainDoneRule, hl, hd, hq]
  | closeDoneExit _ hl hd hc | closeDoneNone _ hl hd hc => simp [exec_closeDone, closeDoneRule, hl, hd, hc]
  | disconnect _ hl he => simp [exec_disconnect, disconnectRule, hl, he]
  | terminateAgain _ _ he => simp [exec_terminate, terminateRule, he]
  | terminateAtOnce _ he hl => rcases hl with hl | hl | hl <;> simp [exec_terminate, terminateRule, he, hl]
  | terminateLater _ he hl => rcases hl with hl | hl <;> simp [exec_terminate, terminateRule, he, hl]
  | terminateDraining _ he hl => simp [exec_terminate, terminateRule, he, hl]
  | tickOff _ hx hm hf | tickOn _ hx hm hf =>
    simp [exec_tick_of_ne_exited hx, tickActions, displayCommand, emit, hm, hf]
  | tickForced _ hx hm =>
    rcases hm with ⟨hm, hf⟩ | ⟨hm, hf⟩ <;> simp [exec_tick_of_ne_exited hx, tickActions, hm, hf]
  | stepDrain _ hl hh | stepExit _ hl hh => simp [exec_step, hl, hh]
  | stepIdle _ hl => simp [exec_step, hl]

/-- With ENDING = 1 the cause stands already (10_state.md R36). -/
theorem recordCause_of_ending (c : Cause) (s : State) (he : s.ending = true) : recordCause c s = s := by
  cases s
  cases he
  rfl

theorem recordCause_of_not_ending (c : Cause) (s : State) (he : s.ending = false) :
    recordCause c s = { s with ending := true, cause := c } := by
  simp [recordCause, he]

theorem enterTermination_of_ending (c : Cause) (s : State) (he : s.ending = true) :
    enterTermination c s = { s with ls := .terminating } := by
  rw [enterTermination, recordCause_of_ending c s he]

theorem enterTermination_of_not_ending (c : Cause) (s : State) (he : s.ending = false) :
    enterTermination c s = { s with ending := true, cause := c, ls := .terminating } := by
  rw [enterTermination, recordCause_of_not_ending c s he]

/-- Settles O7: the two sides of R192's guard. -/
theorem startBeginsConnecting : Obligations.StartBeginsConnecting := by
  refine ⟨rfl, fun s => ⟨fun hl => ?_, fun hl hx => ?_⟩⟩
  · exact (EventCase.start s hl).exec_eq
  · exact exec_of_not_admitted hx (by simp [admits, hl])

/-- Settles O8: ENDING decides which state the opened link begins in. -/
theorem openOkOpensTheLink : Obligations.OpenOkOpensTheLink := by
  refine ⟨rfl, fun s => ⟨fun hl he => ?_, fun hl he => ?_, fun hl hx => ?_⟩⟩
  · exact (EventCase.openOk s hl he).exec_eq
  · exact (EventCase.openOkEnding s hl he).exec_eq
  · exact exec_of_not_admitted hx (by simp [admits, hl])

/-- Settles O9: a retry leaves LS, which is CONNECTING already, and a fatal failure records its cause where none stands. -/
theorem openFailRetriesOrTerminates : Obligations.OpenFailRetriesOrTerminates := by
  refine ⟨rfl, fun s => ⟨fun hl he => ?_, fun hl he hr => ?_, fun hl he hr => ?_, fun hl hx => ?_⟩⟩
  · rw [(EventCase.openFailFatal s hl (.inl he)).exec_eq, enterTermination_of_ending _ (emit _ s) he]
    rfl
  · rw [(EventCase.openFailRetry s hl he hr).exec_eq]
    simp [retryOpen, requestOpen, emit, hl]
  · rw [(EventCase.openFailFatal s hl (.inr hr)).exec_eq, enterTermination_of_not_ending _ (emit _ s) he]
    rfl
  · exact exec_of_not_admitted hx (by simp [admits, hl])

/-- MON_ON by the edges of bit 0 (41_decoder.md R150, R151). -/
theorem monitorAfter_eq_edges (prev b : Byte) (monOn : Bool) :
    monitorAfter prev b monOn =
      if prev.getLsbD 0 = false ∧ b.getLsbD 0 = true then true
      else if prev.getLsbD 0 = true ∧ b.getLsbD 0 = false then false
      else monOn := by
  simp [monitorAfter, pressedEdges_eq, releasedEdges_eq]

/-- RX is ignored outside OPEN and with ENDING = 1 (43_link.md R195); in EXITED nothing is taken. -/
theorem exec_rx_of_ignored (b : Byte) {s : State} (hi : s.ls ≠ .opened ∨ s.ending = true) : exec (.rx b) s = .next s := by
  by_cases hx : s.ls = .exited
  · exact exec_of_exited _ hx
  · exact (EventCase.rxIgnored b s hx (by simpa [imp_iff_not_or] using hi)).exec_eq

/-- Settles O10: the cycle's MON_ON is written by the edges, and the rest of the cycle as R195 lists it. -/
theorem rxRunsOneCycle : Obligations.RxRunsOneCycle := by
  refine ⟨fun _ => rfl, fun s b => ⟨fun f hl he hf => ?_, fun hl he hf => ?_, exec_rx_of_ignored b⟩⟩
  · rw [(EventCase.rxCycle b s f hl he hf).exec_eq, ← monitorAfter_eq_edges]
    rfl
  · exact (EventCase.rxInRange b s hl he hf).exec_eq

/-- Settles O11: the queue and DSUB go with the link, and a fatal loss records its cause where none stands. -/
theorem linkLostReconnectsOrTerminates : Obligations.LinkLostReconnectsOrTerminates := by
  refine ⟨rfl, fun s => ⟨fun hh hl he hr => ?_, fun hh hx he hr => ?_, fun hh hx he => ?_, fun hh hx => ?_⟩⟩
  · rw [(EventCase.linkLostRetry s hh hl he hr).exec_eq]
    simp [retryOpen, requestOpen, dropLink, emit]
  · have hfatal := (EventCase.linkLostFatal s hx hh (hr.imp_right .inr)).exec_eq
    rw [hfatal, enterTermination_of_not_ending _ (dropLink s) he]
    rfl
  · have hfatal := (EventCase.linkLostFatal s hx hh (.inr (.inl he))).exec_eq
    rw [hfatal, enterTermination_of_ending _ (dropLink s) he]
    rfl
  · exact exec_of_not_admitted hx (by simp [admits, hh])

/-- Settles O12: the two sides of R197's guard. -/
theorem disconnectStartsTheDrain : Obligations.DisconnectStartsTheDrain := by
  refine ⟨rfl, fun s => ⟨fun hl he => ?_, fun hg hx => ?_⟩⟩
  · exact (EventCase.disconnect s hl he).exec_eq
  · exact exec_of_not_admitted hx (by rcases hg with hg | hg <;> simp [admits, hg])

/-- Settles O13: the drain is a barrier, passed with TXQ empty only. -/
theorem drainDoneRequestsTheClose : Obligations.DrainDoneRequestsTheClose := by
  refine ⟨rfl, fun s => ⟨fun hl hd hq => ?_, fun hg hx => ?_⟩⟩
  · exact (EventCase.drainDone s hl hd hq).exec_eq
  · exact exec_of_not_admitted hx (by rcases hg with hg | hg | hg <;> simp [admits, hg])

/-- Settles O14: CONT decides where the closed link leaves the run. -/
theorem closeDoneRunsTheContinuation : Obligations.CloseDoneRunsTheContinuation := by
  refine ⟨rfl, fun s => ⟨fun hl hd hc => ?_, fun hl hd hc => ?_, fun hg hx => ?_⟩⟩
  · exact (EventCase.closeDoneNone s hl hd hc).exec_eq
  · exact (EventCase.closeDoneExit s hl hd hc).exec_eq
  · exact exec_of_not_admitted hx (by rcases hg with hg | hg <;> simp [admits, hg])

/-- Settles O15: with ENDING = 0 the signal is the first cause. -/
theorem terminateRecordsTheSignal : Obligations.TerminateRecordsTheSignal := by
  refine ⟨rfl, fun s => ⟨fun he => ?_, fun he hl => ?_, fun he hl => ?_, fun he hl => ?_⟩⟩
  · by_cases hx : s.ls = .exited
    · exact exec_of_exited _ hx
    · exact (EventCase.terminateAgain s hx he).exec_eq
  · rw [(EventCase.terminateAtOnce s he hl).exec_eq, enterTermination_of_not_ending _ s he]
  · rw [(EventCase.terminateLater s he (.inl hl)).exec_eq, recordCause_of_not_ending _ s he]
  · rw [(EventCase.terminateDraining s he hl).exec_eq, recordCause_of_not_ending _ s he]

/-- STEP with no link left exits with the code of the cause (43_link.md R201, R203). -/
theorem exec_step_exits {s : State} {code : Nat} (hl : s.ls = .terminating) (hh : s.handle = false)
    (hcode : exitCodeOf s.params.failExitCode s.cause = code) :
    exec .step s = .next { s with ls := .exited, exitCode := some code, out := s.out ++ [.exit code] } := by
  subst hcode
  exact (EventCase.stepExit s hl hh).exec_eq

/-- Settles O16: HANDLE decides between the drain and the exit. -/
theorem stepDrainsOrExits : Obligations.StepDrainsOrExits := by
  refine ⟨rfl, fun s hl => ⟨fun hh => ?_, fun hh hc => ?_, fun hh hc => ?_⟩⟩
  · exact (EventCase.stepDrain s hl hh).exec_eq
  · exact exec_step_exits hl hh (by rw [hc]; rfl)
  · exact exec_step_exits hl hh (by rcases hc with hc | hc <;> rw [hc] <;> rfl)

/-- Settles O17: nothing but TERMINATING gives STEP an effect. -/
theorem stepIsIdleOutsideTerminating : Obligations.StepIsIdleOutsideTerminating := fun s hl => (EventCase.stepIdle s hl).exec_eq

end Sys2Proof.Machine
end

section
/-! The link-lifecycle state machine as a whole (43_link.md R190 to R206): what every event keeps, whatever the state. -/

namespace Sys2Proof.Machine

/-- Settles O44: EV_CONTEXT is the one case that R190's table does not list; of the listed ones only RX's range check faults. -/
theorem contextFaultsExactlyOutsideTheTable : Obligations.ContextFaultsExactlyOutsideTheTable := by
  intro i s hwf hx
  refine ⟨fun hg => exec_of_not_admitted hx hg (by simpa [Instr.wellFormed] using hwf), fun hg => ?_⟩
  obtain ⟨t, ht⟩ := exec_completes i s
  refine ⟨t, ht, ?_⟩
  cases exec_eventCase ht with
  | context _ _ _ _ hg' => simp [hg'] at hg
  | rxInRange b => exact .inr ⟨b, rfl, rfl⟩
  | _ => exact .inl rfl

/-- A link is open in OPEN, DRAINING or TERMINATING only (10_state.md R47.4). -/
theorem RegisterInvariants.ls_of_handle {s : State} (hs : RegisterInvariants s) (hh : s.handle = true) :
    s.ls = .opened ∨ s.ls = .draining ∨ s.ls = .terminating := by
  obtain ⟨-, -, ⟨-, hclosed⟩, -⟩ := hs
  cases hl : s.ls <;> simp_all

/-- Settles O49: each case that writes LS is an edge; a link that is lost for good was open in OPEN, DRAINING or TERMINATING. -/
theorem linkStateFollowsTheTable : Obligations.LinkStateFollowsTheTable := by
  intro i s t hs h
  cases exec_eventCase h with
  | start _ hl | openOkEnding _ hl | openOk _ hl | openFailFatal _ hl | linkLostRetry _ _ hl | closeDoneExit _ hl
    | closeDoneNone _ hl | disconnect _ hl | stepDrain _ hl | stepExit _ hl =>
    exact .inr (by simp [linkStateEdges, hl])
  | openFailRetry _ hl => exact .inl hl.symm
  | linkLostFatal _ _ hh =>
    rcases hs.ls_of_handle hh with hl | hl | hl
    · exact .inr (by simp [linkStateEdges, hl])
    · exact .inr (by simp [linkStateEdges, hl])
    · exact .inl hl.symm
  | terminateAtOnce _ _ hl =>
    refine .inr ?_
    rcases hl with hl | hl | hl <;> simp [linkStateEdges, hl]
  | _ => exact .inl rfl

/-! Reconnects (43_link.md R202). -/

/-- An event that does not retry the open asks for the link in START only, and writes RETRY to reset it only. -/
def AsksForNoReconnect (i : Instr) (s t : State) : Prop :=
  (i ≠ .start → t.out.countP isReqOpen = s.out.countP isReqOpen) ∧ (t.retry = s.retry ∨ t.retry = 0)

/-- A retry needs RETRY < RECONNECT_MAX. -/
theorem EventCase.retryLeft_or_asksForNoReconnect {i : Instr} {s t : State} (h : EventCase i s t) :
    s.retry.toNat < s.params.reconnectMax.val ∨ AsksForNoReconnect i s t := by
  cases h with
  | openFailRetry _ _ _ hr | linkLostRetry _ _ _ _ hr => exact .inl hr
  | start => exact .inr ⟨fun hi => absurd rfl hi, .inl rfl⟩
  | openOkEnding | openOk => exact .inr ⟨fun _ => rfl, .inr rfl⟩
  | _ => exact .inr ⟨fun _ => by simp, .inl rfl⟩

/-- Settles O52: nothing is below RECONNECT_MAX = 0, so every failure and every loss is fatal. -/
theorem noReconnectByDefault : Obligations.NoReconnectByDefault := by
  intro i s t hmax h
  have hr : ¬ s.retry.toNat < s.params.reconnectMax.val := by simp [hmax]
  obtain ⟨hout, hretry⟩ := (exec_eventCase h).retryLeft_or_asksForNoReconnect.resolve_left hr
  refine ⟨?_, ?_, hout, fun hzero => ?_⟩
  · rintro rfl hl
    cases h.symm.trans (EventCase.openFailFatal s hl (.inr hr)).exec_eq
    rfl
  · rintro rfl hh hx
    cases h.symm.trans (EventCase.linkLostFatal s hx hh (.inr (.inr hr))).exec_eq
    rfl
  · rcases hretry with hretry | hretry
    · rw [hretry, hzero]
    · exact hretry

/-! The log records (43_link.md R204). -/

/-- The log record of an event that is taken, if it has one. -/
def logRecordOf (i : Instr) (s : State) : List LogKind :=
  if i = .openFail ∧ s.ls = .connecting then [.openFail]
  else if i = .linkLost ∧ s.handle = true ∧ s.ls ≠ .exited then [.linkLost]
  else []

/-- The events that log are the OPEN_FAIL and the LINK_LOST that the state admits. -/
theorem logRecordOf_of_not_admitted {i : Instr} {s : State} (hg : admits i s = false) : logRecordOf i s = [] := by
  have hopen : ¬ (i = .openFail ∧ s.ls = .connecting) := by
    rintro ⟨rfl, hl⟩
    simp [admits, hl] at hg
  have hlost : ¬ (i = .linkLost ∧ s.handle = true ∧ s.ls ≠ .exited) := by
    rintro ⟨rfl, hh, hx⟩
    simp [admits, hh, hx] at hg
  rw [logRecordOf, if_neg hopen, if_neg hlost]

theorem EventCase.logs {i : Instr} {s t : State} (h : EventCase i s t) : logsOf t.out = logsOf s.out ++ logRecordOf i s := by
  cases h with
  | context _ _ _ _ hg => simp [logRecordOf_of_not_admitted hg]
  | exited _ _ hx => simp [logRecordOf, hx]
  | openFailRetry _ hl | openFailFatal _ hl => simp [logRecordOf, logsOf_append, logsOf_pair, hl]
  | linkLostRetry _ hh hl => simp [logRecordOf, logsOf_append, logsOf_pair, hh, hl]
  | linkLostFatal _ hx hh => simp [logRecordOf, logsOf_append, hh, hx]
  | _ => simp [logRecordOf, logsOf_append]

/-- Settles O53: `logRecordOf` is the record that R204 names. -/
theorem logRecordsExactly : Obligations.LogRecordsExactly := fun _ _ _ h => (exec_eventCase h).logs

/-! Termination (43_link.md R205, R206). -/

theorem RegisterInvariants.ending_of_terminating {s : State} (hs : RegisterInvariants s) (hl : s.ls = .terminating) :
    s.ending = true := by
  obtain ⟨-, hending, -⟩ := (registerInvariants_iff hl).1 hs
  exact hending

/-- Settles O54: a STEP that emits anything is taken in TERMINATING, where ENDING = 1, with which RX is ignored. -/
theorem endingComesBeforeTheDrain : Obligations.EndingComesBeforeTheDrain := by
  refine ⟨fun s t hs h hout => hs.ending_of_terminating ?_, fun s b he => exec_rx_of_ignored b (.inr he)⟩
  by_contra hl
  cases h.symm.trans (EventCase.stepIdle s hl).exec_eq
  simp at hout

/-- The cases of an event with no link, but for the OPEN_OK that opens it: the link registers stay, the open is asked for, or the
run moves towards its exit. No case asks for a drain or a close. -/
theorem EventCase.of_noLink {i : Instr} {s t : State} (h : EventCase i s t) (hs : NoLink s)
    (hi : ¬ (i = .openOk ∧ s.ls = .connecting)) :
    t.handle = false ∧ closingRequestsOf t.out = closingRequestsOf s.out ∧
      (t.ls = s.ls ∨ (s.ls = .disconnected ∧ t.ls = .connecting) ∨ t.ls ∈ [.terminating, .exited]) := by
  obtain ⟨hh, hls⟩ := hs
  cases h with
  | openOkEnding _ hl | openOk _ hl => exact absurd ⟨rfl, hl⟩ hi
  | txTake _ _ _ _ hh' | linkLostRetry _ hh' | linkLostFatal _ _ hh' | stepDrain _ _ hh' => simp [hh] at hh'
  | rxCycle _ _ _ hl | drainDone _ hl | closeDoneExit _ hl | closeDoneNone _ hl | disconnect _ hl => simp [hl] at hls
  | start _ hl => exact ⟨hh, by simp [closingRequestsOf_append], .inr (.inl ⟨hl, rfl⟩)⟩
  | openFailRetry _ hl => exact ⟨hh, by simp [closingRequestsOf_append, closingRequestsOf_pair], .inl hl.symm⟩
  | openFailFatal | terminateAtOnce | stepExit => exact ⟨hh, by simp [closingRequestsOf_append], .inr (.inr (by simp))⟩
  | _ => exact ⟨hh, by simp [closingRequestsOf_append], .inl rfl⟩

/-- Settles O55: with no link no case reaches OPEN, DRAINING or CLOSED; a fatal failure finds no link, and a fatal loss drops it. -/
theorem noDrainWithoutALink : Obligations.NoDrainWithoutALink := by
  refine ⟨fun i s t hs h hi => ?_, fun i s t hs h hi hl' => ?_⟩
  · obtain ⟨hh, hout, hls⟩ := (exec_eventCase h).of_noLink hs hi
    obtain ⟨-, hbefore⟩ := hs
    rcases hls with hls | ⟨hl, hls⟩ | hls
    · exact ⟨⟨hh, hls ▸ hbefore⟩, hout, fun hend => hls ▸ hend⟩
    · exact ⟨⟨hh, by simp [hls]⟩, hout, fun hend => by simp [hl] at hend⟩
    · exact ⟨⟨hh, List.mem_cons_of_mem _ (List.mem_cons_of_mem _ hls)⟩, hout, fun _ => hls⟩
  · rcases hi with ⟨rfl, hl⟩ | ⟨rfl, hh⟩
    · cases exec_eventCase h with
      | openFailFatal => exact ⟨⟨(hs.connecting hl).1, by simp⟩, rfl, by simp [closingRequestsOf_append]⟩
      | openFailRetry => exact absurd rfl hl'
      | exited _ _ hx => simp [hl] at hx
      | context _ _ _ _ hg => simp [admits, hl] at hg
    · cases exec_eventCase h with
      | linkLostFatal => exact ⟨⟨rfl, by simp⟩, rfl, by simp [closingRequestsOf_append]⟩
      | linkLostRetry => exact absurd rfl hl'
      | exited _ _ hx =>
        rcases hs.ls_of_handle hh with hl | hl | hl <;> simp [hl] at hx
      | context _ _ hx _ hg => simp [admits, hh, hx] at hg

end Sys2Proof.Machine
end

section
/-! Runs of the link-lifecycle state machine (00_scope.md R5, 43_link.md R191): what one step takes off the schedule, and the runs
that end in EXITED. -/

namespace Sys2Proof.Machine

theorem step_of_schedule_nil {s : State} (hs : s.schedule = []) : step s = .next s := by
  simp only [step, hs]

theorem step_of_schedule_cons {stim : Stimulus} {rest : List Stimulus} {s : State} (hs : s.schedule = stim :: rest) :
    step s = runStimulus stim (takeStimulus stim rest s) := by
  simp only [step, hs]

/-- The sample beside a word answers the draw, else the free draw of this step does (00_scope.md R8). -/
theorem drawOf_present (n : Nat) (w : EventWord) (smp : Option Sample) :
    drawOf n (.present w smp) = smp.getD (Config.freeDraw n) := by
  cases smp <;> rfl

theorem acceptWord_of_exited (w : EventWord) {s : State} (hx : s.ls = .exited) : acceptWord w s = .next s := if_pos hx

/-- A legal word runs its event: Accept's "no step" in EXITED is the event's own (43_link.md R191). -/
theorem acceptWord_of_ok {w : EventWord} {i : Instr} (s : State) (hd : decode w = .ok i) : acceptWord w s = exec i s := by
  by_cases hx : s.ls = .exited
  · rw [acceptWord_of_exited w hx, exec_of_exited i hx]
  · simp [acceptWord, hx, hd]

/-- Settles O4: the stimulus is taken first, then Accept decodes its word. -/
theorem stepRunsTheDecodedEvent : Obligations.StepRunsTheDecodedEvent := by
  refine fun s => ⟨step_of_schedule_nil, fun rest hs => step_of_schedule_cons hs, fun w smp rest hs => ?_⟩
  rw [step_of_schedule_cons hs, takeStimulus, drawOf_present]
  exact ⟨fun _ => acceptWord_of_ok _, fun e hd hx => acceptWord_of_error hx ⟨e, hd⟩, fun hx => acceptWord_of_exited w hx⟩

/-- `n` steps from `s` end the run for the cause `c` with exit code `code`: no link, no byte and no new fault is left, and OUT has
grown by `actions`. -/
def RunsToExit (n : Nat) (s : State) (c : Cause) (code : Nat) (actions : List Action) : Prop :=
  ∃ t, Sys2Proof.core.run n s = .next t ∧ t.ls = .exited ∧ t.cause = c ∧ t.exitCode = some code ∧ t.handle = false ∧
    t.txq = [] ∧ t.fault = s.fault ∧ t.out = s.out ++ actions

/-- The event `i`, written as in a script, is taken first and does not fault. -/
theorem RunsToExit.of_event {n code : Nat} {i : Instr} {rest : List Stimulus} {s t : State} {c : Cause}
    {first actions : List Action} (hs : s.schedule = stimulusOfEvent i none :: rest) (hx : s.ls ≠ .exited)
    (h : EventCase i (takeStimulus (stimulusOfEvent i none) rest s) t) (hfault : t.fault = s.fault)
    (hout : t.out = s.out ++ first) (hexit : RunsToExit n t c code actions) : RunsToExit (n + 1) s c code (first ++ actions) := by
  obtain ⟨u, hrun, hls, hcause, hcode, hhandle, hqueue, hfault', hout'⟩ := hexit
  refine ⟨u, ?_, hls, hcause, hcode, hhandle, hqueue, hfault'.trans hfault, ?_⟩
  · rw [core_run_succ ((step_of_stimulusOfEvent hs hx).trans h.exec_eq), hrun]
  · rw [hout', hout, List.append_assoc]

/-- The STEP that exits, with no link left to drain (43_link.md R201, R203). -/
theorem runsToExit_step {code : Nat} {rest : List Stimulus} {s : State} {c : Cause}
    (hs : s.schedule = stimulusOfEvent .step none :: rest) (hl : s.ls = .terminating) (hh : s.handle = false) (hq : s.txq = [])
    (hcause : s.cause = c) (hcode : exitCodeOf s.params.failExitCode c = code) : RunsToExit 1 s c code [.exit code] := by
  subst hcause hcode
  have hstep : step s = .next (exitProcess (takeStimulus (stimulusOfEvent .step none) rest s)) :=
    (step_of_stimulusOfEvent hs (by simp [hl])).trans (EventCase.stepExit (takeStimulus _ _ s) hl hh).exec_eq
  exact ⟨_, (core_run_succ hstep).trans (core_run_zero _), rfl, rfl, rfl, hh, hq, rfl, rfl⟩

/-- A drain for termination, once LINK answers it: a TX_TAKE for each byte of TXQ, DRAIN_DONE, CLOSE_DONE, and BLOCK's STEP
(42_framing.md R172, 43_link.md R198, R199, R201). -/
theorem runsToExit_drain {q : List Byte} {s : State}
    (hs : s.schedule = List.replicate q.length (stimulusOfEvent .txTake none) ++
      [Instr.drainDone, .closeDone, .step].map (stimulusOfEvent · none))
    (hl : s.ls = .draining) (hd : s.dsub = false) (hh : s.handle = true) (hq : s.txq = q) (hcont : s.cont = .exit)
    (hcause : s.cause = .signal) :
    RunsToExit (q.length + 3) s .signal 0 (q.map .wire ++ [Action.reqClose, .exit 0]) := by
  have hx : s.ls ≠ .exited := by simp [hl]
  induction q generalizing s with
  | nil =>
    refine .of_event (first := [.reqClose]) hs hx (.drainDone _ hl hd hq) rfl rfl ?_
    refine .of_event (first := []) rfl hx (.closeDoneExit _ hl rfl hcont) rfl (List.append_nil _).symm ?_
    exact runsToExit_step rfl rfl rfl hq hcause rfl
  | cons b q ih =>
    exact .of_event (first := [.wire b]) hs hx (.txTake _ b q hx hh hq) rfl rfl (ih rfl hl hd hh rfl hcont hcause hx)

/-- Settles O58: TERMINATE and STEP begin the drain, which LINK answers in full. -/
theorem gracefulTerminationExits : Obligations.GracefulTerminationExits := by
  intro s hs hl hsched
  obtain ⟨-, he, -, hh, -⟩ := (registerInvariants_iff hl).1 hs
  have hevents : s.schedule = stimulusOfEvent .terminate none :: stimulusOfEvent .step none ::
      (List.replicate s.txq.length (stimulusOfEvent .txTake none) ++
        [Instr.drainDone, .closeDone, .step].map (stimulusOfEvent · none)) := hsched
  have hexit : RunsToExit (s.txq.length + 5) s .signal 0 ([Action.reqDrain] ++ (s.txq.map .wire ++ [Action.reqClose, .exit 0])) := by
    refine .of_event (first := []) hevents (by simp [hl]) (.terminateAtOnce _ he (.inr (.inl hl))) rfl
      (List.append_nil _).symm ?_
    refine .of_event (first := [.reqDrain]) rfl (by simp) (.stepDrain _ rfl hh) rfl rfl ?_
    exact runsToExit_drain rfl rfl rfl hh rfl rfl (by simp [he])
  obtain ⟨t, hrun, hls, -, hcode, hhandle, hqueue, hfault, hout⟩ := hexit
  exact ⟨t, hrun, hls, hcode, hqueue, hhandle, hfault, by simpa using hout⟩

/-- Settles O59: the failure is fatal, so STEP finds no link to drain. -/
theorem openFailureExitsWithoutDrain : Obligations.OpenFailureExitsWithoutDrain := by
  intro s hs hl he hr hsched
  obtain ⟨hh, hq⟩ := hs.connecting hl
  have hevents : s.schedule = [Instr.openFail, .step].map (stimulusOfEvent · none) := hsched
  have hexit : RunsToExit 2 s .openFail s.params.failExitCode ([Action.log .openFail] ++ [Action.exit s.params.failExitCode]) := by
    refine .of_event hevents (by simp [hl]) (.openFailFatal _ hl (.inr hr.ge.not_gt)) rfl rfl ?_
    exact runsToExit_step rfl rfl hh hq (by simp [he]) rfl
  obtain ⟨t, hrun, hls, hcause, hcode, -, -, hfault, hout⟩ := hexit
  exact ⟨t, hrun, hls, hcode, hcause, hfault, hout⟩

end Sys2Proof.Machine
end

section
/-! The faults (60_exceptions.md R230 to R235, R242): the three things FAULT can see of an event, and why an environment that keeps
its duties meets neither of the two that fault. -/

namespace Sys2Proof.Machine

/-- What FAULT sees of an event: nothing, EV_CONTEXT where R190's table does not list the event, or IN_RANGE where ENCODE refuses
the draw of an accepted RX. A fault is the whole of its step (60_exceptions.md R231). -/
theorem EventCase.fault_cases {i : Instr} {s t : State} (h : EventCase i s t) :
    t.fault = s.fault ∨
    (s.ls ≠ .exited ∧ admits i s = false ∧ t = raiseFault .evContext s) ∨
    (∃ b, i = .rx b ∧ s.ls = .opened ∧ s.ending = false ∧ encodeFrame s.params.barArith s.draw = none ∧
      t = raiseFault .inRange s) := by
  cases h with
  | context _ _ hx _ hg => exact .inr (.inl ⟨hx, hg, rfl⟩)
  | rxInRange b _ hl he hf => exact .inr (.inr ⟨b, rfl, hl, he, hf, rfl⟩)
  | _ => exact .inl rfl

theorem EventCase.keeps_fault_or_raises {i : Instr} {s t : State} (h : EventCase i s t) :
    t.fault = s.fault ∨ ∃ f, t = raiseFault f s := by
  rcases h.fault_cases with hkept | ⟨-, -, ht⟩ | ⟨_, -, -, -, -, ht⟩
  · exact .inl hkept
  · exact .inr ⟨_, ht⟩
  · exact .inr ⟨_, ht⟩

theorem and_or_self_left (x y : BitVec 3) : x &&& (x ||| y) = x := by
  ext k hk
  simpa using Or.inl

/-- Settles O43: FAULT is written by `raiseFault` alone, which sets a bit and writes nothing else. -/
theorem faultedEventsChangeOnlyFault : Obligations.FaultedEventsChangeOnlyFault := by
  intro i s t h
  rcases (exec_eventCase h).keeps_fault_or_raises with hkept | ⟨f, rfl⟩
  · exact ⟨fun hne => absurd hkept hne, by rw [hkept, BitVec.and_self]⟩
  · exact ⟨fun _ => rfl, and_or_self_left _ _⟩

/-! The environment's duties (60_exceptions.md R242, notes/assumptions/19.md). -/

/-- Outside EXITED a duty that LINK, TIMER, BLOCK or a TERMINATE keeps is the event's guard; TX_TAKE's duty names the queue only,
whose bytes belong to an open link (10_state.md R47.5). -/
theorem admits_of_dutyAllows {past : List Stimulus} {i : Instr} {s : State} (hs : RegisterInvariants s) (hx : s.ls ≠ .exited)
    (hi : i ≠ .start ∧ i ≠ .disconnect) (hduty : dutyAllows past i s = true) : admits i s = true := by
  cases i with
  | start | disconnect => simp at hi
  | txTake =>
    have hq : s.txq ≠ [] := by simpa [dutyAllows] using hduty
    simp [admits, hx, hq, hs.queueNeedsHandle hq]
  | rx | terminate | tick => simp [admits, hx]
  | openOk | openFail | linkLost | drainDone | closeDone | step => simpa [admits, dutyAllows, hx] using hduty

/-- An event of which the environment keeps its duties does not fault: it is admitted, and the draw of an accepted RX has a frame. -/
theorem EventCase.keeps_fault_of_duties {past : List Stimulus} {i : Instr} {s t : State} (h : EventCase i s t)
    (hs : RegisterInvariants s) (hi : i ≠ .start ∧ i ≠ .disconnect) (hduty : dutyAllows past i s = true)
    (hdraw : drawKeepsContract i s.draw s = true) : t.fault = s.fault := by
  rcases h.fault_cases with hkept | ⟨hx, hg, -⟩ | ⟨b, rfl, hl, he, hf, -⟩
  · exact hkept
  · simp [admits_of_dutyAllows hs hx hi hduty] at hg
  · have hcontract : sampleInContract s.params.barArith s.draw = true := by simpa [drawKeepsContract, hl, he] using hdraw
    exact absurd hf (encodeFrame_ne_none_of_sampleInContract hcontract)

theorem EventCase.keeps_schedule {i : Instr} {s t : State} (h : EventCase i s t) : t.schedule = s.schedule := by
  cases h <;> rfl

/-- A stimulus that R242 allows is a legal word or BLOCK's STEP: it runs an event, whose duties are kept in the state that has taken
it, with the draw that stands beside it. -/
theorem exists_event_of_stimulusAllowed {past rest : List Stimulus} {stim : Stimulus} {s : State}
    (h : stimulusAllowed past stim s = true) :
    ∃ i, (∀ u, runStimulus stim u = exec i u) ∧ (i = .step ∨ ∃ smp, stim = .present (encode i) smp) ∧
      dutyAllows past i (takeStimulus stim rest s) = true ∧
      drawKeepsContract i (takeStimulus stim rest s).draw (takeStimulus stim rest s) = true := by
  cases stim with
  | block => exact ⟨.step, fun _ => rfl, .inl rfl, h, rfl⟩
  | present w smp =>
    cases hd : decode w with
    | error e => simp [stimulusAllowed, hd] at h
    | ok i =>
      obtain ⟨-, rfl⟩ := (decode_eq_ok_iff w i).1 hd
      simp only [stimulusAllowed, hd, Bool.and_eq_true] at h
      obtain ⟨hduty, hdraw⟩ := h
      exact ⟨i, fun u => acceptWord_of_ok u hd, .inr ⟨smp, rfl⟩, hduty, hdraw⟩

theorem keepsDuties_cons_iff {past rest : List Stimulus} {stim : Stimulus} {s : State} :
    keepsDuties past (stim :: rest) s = true ↔
      stimulusAllowed past stim s = true ∧
        ∃ t, runStimulus stim (takeStimulus stim rest s) = .next t ∧ keepsDuties (past ++ [stim]) rest t = true := by
  rw [keepsDuties, Bool.and_eq_true]
  cases hrun : runStimulus stim (takeStimulus stim rest s) <;> simp

/-- A schedule in which HOST presents neither START nor DISCONNECT. -/
def NoStartOrDisconnect (sched : List Stimulus) : Prop :=
  ∀ w smp, Stimulus.present w smp ∈ sched → w ≠ 0x1000 ∧ w ≠ 0x9000

/-- A run of which the environment keeps its duties does not fault, event by event. -/
theorem run_keeps_fault_of_duties {past sched : List Stimulus} {s : State} (hs : RegisterInvariants s) (hsched : s.schedule = sched)
    (hduties : keepsDuties past sched s = true) (hhost : NoStartOrDisconnect sched) :
    ∃ t, Sys2Proof.core.run sched.length s = .next t ∧ t.fault = s.fault := by
  induction sched generalizing past s with
  | nil => exact ⟨s, core_run_zero s, rfl⟩
  | cons stim rest ih =>
    obtain ⟨hallowed, t, hrun, hrest⟩ := keepsDuties_cons_iff.1 hduties
    obtain ⟨i, hevent, hword, hduty, hdraw⟩ := exists_event_of_stimulusAllowed (rest := rest) hallowed
    have hi : i ≠ .start ∧ i ≠ .disconnect := by
      rcases hword with rfl | ⟨smp, rfl⟩
      · simp
      · obtain ⟨hstart, hdisconnect⟩ := hhost _ smp List.mem_cons_self
        exact ⟨fun e => hstart (e ▸ rfl), fun e => hdisconnect (e ▸ rfl)⟩
    have hcase : EventCase i (takeStimulus stim rest s) t := exec_eventCase ((hevent _).symm.trans hrun)
    have hfault : t.fault = s.fault := hcase.keeps_fault_of_duties hs hi hduty hdraw
    obtain ⟨u, hu, hfault'⟩ :=
      ih (hcase.keeps_registerInvariants hs) hcase.keeps_schedule hrest fun w smp h => hhost w smp (List.mem_cons_of_mem _ h)
    exact ⟨u, (core_run_succ ((step_of_schedule_cons hsched).trans hrun)).trans hu, hfault'.trans hfault⟩

/-- Settles O47: START and DISCONNECT are the events of HOST that are no TERMINATE. -/
theorem dutifulEnvironmentNeverFaults : Obligations.DutifulEnvironmentNeverFaults := by
  refine ⟨fun past i s t hs hagent hduty hdraw h => ?_, fun past s hs hduties hhost => ?_⟩
  · have hi : i ≠ .start ∧ i ≠ .disconnect := by
      constructor <;> rintro rfl <;> simp [Instr.agent] at hagent
    exact (exec_eventCase h).keeps_fault_of_duties hs hi hduty hdraw
  · exact run_keeps_fault_of_duties hs rfl hduties hhost

end Sys2Proof.Machine
end

section
/-! Termination and the exit (60_exceptions.md R237, R238, R245). -/

namespace Sys2Proof.Machine

/-- Once termination began, its cause stands (10_state.md R36). -/
theorem EventCase.keeps_cause {i : Instr} {s t : State} (h : EventCase i s t) (he : s.ending = true) : t.cause = s.cause := by
  cases h with
  | openFailFatal | linkLostFatal => simp [he]
  | terminateAtOnce _ he' | terminateLater _ he' | terminateDraining _ he' => simp [he] at he'
  | _ => rfl

/-- No open is asked for once termination began: only a pending one may still be unanswered. -/
theorem EventCase.connecting_of_ending {i : Instr} {s t : State} (h : EventCase i s t) (hs : RegisterInvariants s)
    (he : s.ending = true) (hl' : t.ls = .connecting) : s.ls = .connecting := by
  cases h with
  | start _ hl =>
    obtain ⟨-, hnot, -⟩ := (registerInvariants_iff hl).1 hs
    simp [he] at hnot
  | openFailRetry _ hl => exact hl
  | linkLostRetry _ _ _ he' => simp [he] at he'
  | openOkEnding | openOk | openFailFatal | linkLostFatal | closeDoneExit | closeDoneNone | disconnect | terminateAtOnce
    | stepDrain | stepExit => cases hl'
  | _ => exact hl'

/-- Settles O50: ENDING = 1 goes with CONNECTING, DRAINING, TERMINATING and EXITED only (10_state.md R47.2), of which CONNECTING
is not entered again. -/
theorem terminationNeverReturns : Obligations.TerminationNeverReturns := by
  intro s t hs he h
  obtain ⟨ht, he', hcause, hconnecting⟩ : RegisterInvariants t ∧ t.ending = true ∧ t.cause = s.cause ∧
      (t.ls = .connecting → s.ls = .connecting) :=
    step_keeps
      (P := fun u => RegisterInvariants u ∧ u.ending = true ∧ u.cause = s.cause ∧ (u.ls = .connecting → s.ls = .connecting))
      (fun _ _ _ => id) (fun _ => id)
      (fun hcase ⟨hu, hending, hcause, hconnecting⟩ =>
        ⟨hcase.keeps_registerInvariants hu, hcase.keeps_ending hending, (hcase.keeps_cause hending).trans hcause,
          fun hl => hconnecting (hcase.connecting_of_ending hu hending hl)⟩)
      ⟨hs, he, rfl, id⟩ h
  obtain ⟨⟨-, hls⟩, -⟩ := ht
  have hend : t.ls = .connecting ∨ t.ls = .draining ∨ t.ls = .terminating ∨ t.ls = .exited := by simpa using hls he'
  refine ⟨he', hcause, ?_, fun hl => ?_⟩
  · rcases hend with hl | hl | hl | hl <;> simp [hl]
  · have hnot : t.ls ≠ .connecting := fun hl' => absurd (hl.symm.trans (hconnecting hl')) (by simp)
    simpa [or_left_comm] using hend.resolve_left hnot

/-- Settles O51: an event runs no rule in EXITED, and Accept decodes no word. -/
theorem exitedIsFinal : Obligations.ExitedIsFinal :=
  ⟨fun i _ hx => exec_of_exited i hx, fun w _ hx => acceptWord_of_exited w hx⟩

end Sys2Proof.Machine
end

section
/-! Reset and what a run never writes (70_reset_and_hazards.md R260, R262). -/

namespace Sys2Proof.Machine

/-- Settles O5: `State.reset` is `State.resetWith` at the parameters of `Config.params`, whose MON_ON_RESET is Config's. -/
theorem resetSetsEveryRegister : Obligations.ResetSetsEveryRegister := by
  unfold Obligations.ResetSetsEveryRegister
  intro atReset
  have hreset : ∀ p : Params, atReset (State.resetWith p) p.monOnReset := fun p => by and_intros <;> rfl
  exact ⟨hreset Config.params, hreset⟩

/-- No event writes a parameter (70_reset_and_hazards.md R262). -/
theorem EventCase.keeps_params {i : Instr} {s t : State} (h : EventCase i s t) : t.params = s.params := by
  cases h <;> rfl

/-- The draw an event reads, and the count of stimuli that numbers the draws, were set when the step took its stimulus
(notes/assumptions/9.md). -/
theorem EventCase.keeps_draw_and_stepIndex {i : Instr} {s t : State} (h : EventCase i s t) :
    t.draw = s.draw ∧ t.stepIndex = s.stepIndex := by
  cases h <;> exact ⟨rfl, rfl⟩

/-- Settles O57: taking a stimulus and refusing a word leave the parameters, and so does every case of an event. -/
theorem parametersAreFixed : Obligations.ParametersAreFixed := by
  refine ⟨fun s t h => ?_, fun i s t h => ?_⟩
  · exact step_keeps (P := fun u => u.params = s.params)
      (fun stim rest u hu => (takeStimulus_params stim rest u).trans hu)
      (fun u hu => (raiseFault_params .evIllegal u).trans hu)
      (fun hcase hu => hcase.keeps_params.trans hu) rfl h
  · have hcase : EventCase i s t := exec_eventCase h
    exact ⟨hcase.keeps_params, hcase.keeps_schedule, hcase.keeps_draw_and_stepIndex⟩

end Sys2Proof.Machine
end
